-- ==== Sys2Proof/Word.lean ====
section
/-! DEFINITION. The word types, bounds and enumerated codes of base85_group_coder (spec 00_scope R5, R6; 10_state R21). -/

namespace Sys2Proof

/-- A raw byte, or one 8-bit character code (R6, decision D6). -/
abbrev Byte := BitVec 8

/-- A group: 4 raw bytes as one 32-bit unsigned number (R6, R56). -/
abbrev Group := BitVec 32

/-- A command word, format CMD64 (R70). -/
abbrev Cmd := BitVec 64

/-- A length counter of W_CNT = 32 bits: ECNT, LCNT, G_N (R5, R20). Log entry 12. -/
abbrev Counter := BitVec 32

/-- MAXCNT = 2^W_CNT - 1, the largest value of a length counter (R5). -/
def maxCnt : Nat := 4294967295

/-- The largest value of a group, 2^32 - 1, above which a quintet overflows (R103). -/
def maxGroup : Nat := 4294967295

/-- STAT.STATE (R21). The codes 5 to 7 never occur. -/
inductive StreamState where
  | idle | enc | dec | done | err
  deriving DecidableEq, Repr

/-- STAT.ERR, the stream error record (R21, R200). The codes 5 to 7 never occur. -/
inductive StreamErr where
  | none | unrecognizedChar | misplacedException | overflow | limit
  deriving DecidableEq, Repr

/-- STAT.GERR, the group result record (R21, R200, R202). The code 3 never occurs. -/
inductive GroupErr where
  | ok | unrecognizedChar | overflow
  deriving DecidableEq, Repr

/-- STAT.CMDCAUSE, the cause of the most recent command rejection (R21, R200, R203). The codes 6 and 7 never occur. -/
inductive CmdCause where
  | none | reservedOpcode | reservedField | badOperand | wrongState | limit
  deriving DecidableEq, Repr

/-- The selector of G_CMP: 0 N, 1 XOR, 2 SUM, 3 ROT (R71, R164). -/
inductive GuardSel where
  | n | xor | sum | rot
  deriving DecidableEq, Repr

end Sys2Proof
end

