-- ==== Sys2Proof/Syntax.lean ====
section
/-! DEFINITION. The commands of the block: one constructor for each row of spec/opcode_table.json (30_encoding R72). -/

namespace Sys2Proof

/-- A decoded command. Operands are the fields R71 names, already taken apart. -/
inductive Instr where
  /-- NOP (R180). -/
  | nop
  /-- SET_CTRL pad: the new CTRL.PAD_FINAL, B[0] (R181). -/
  | setCtrl (pad : Bool)
  /-- CLR_CMDERR (R182). -/
  | clrCmdErr
  /-- GRP_ENC w: the group W (R101). -/
  | grpEnc (w : Group)
  /-- GRP_DEC c0, c1, c2, c3, c4: the five characters B, W[31:24], W[23:16], W[15:8], W[7:0] (R71, R104). -/
  | grpDec (c0 c1 c2 c3 c4 : Byte)
  /-- ENC_START (R121). -/
  | encStart
  /-- ENC_BYTE b (R122). -/
  | encByte (b : Byte)
  /-- ENC_END (R126). -/
  | encEnd
  /-- DEC_START (R141). -/
  | decStart
  /-- DEC_CHAR c (R142). -/
  | decChar (c : Byte)
  /-- DEC_END (R145). -/
  | decEnd
  /-- G_CLEAR (R160). -/
  | gClear
  /-- G_BYTE b (R161). -/
  | gByte (b : Byte)
  /-- G_CMP sel, w (R164). -/
  | gCmp (sel : GuardSel) (w : BitVec 32)
  deriving DecidableEq, Repr

end Sys2Proof
end

