-- ==== Sys2Proof/Decode.lean ====
section
/-! DEFINITION. The decoder, total on all 2^64 command words and rejecting by cause (30_encoding R70 to R74), and the encoder (R79). -/

namespace Sys2Proof

/-- OPC, bits [7:0] (R70). -/
def cmdOpc (cmd : Cmd) : BitVec 8 := cmd.extractLsb' 0 8

/-- B, bits [15:8] (R70). -/
def cmdB (cmd : Cmd) : Byte := cmd.extractLsb' 8 8

/-- RSV, bits [31:16], which must be 0 (R70). -/
def cmdRsv (cmd : Cmd) : BitVec 16 := cmd.extractLsb' 16 16

/-- W, bits [63:32] (R70). -/
def cmdW (cmd : Cmd) : BitVec 32 := cmd.extractLsb' 32 32

/-- The checks of R74 on RSV, on an unused B and on an unused W, in that order; then `build` reads the operands. -/
def readFields (cmd : Cmd) (usesB usesW : Bool) (build : Byte → BitVec 32 → Except CmdCause Instr) :
    Except CmdCause Instr :=
  if cmdRsv cmd ≠ 0#16 then .error .reservedField
  else if usesB = false ∧ cmdB cmd ≠ 0#8 then .error .reservedField
  else if usesW = false ∧ cmdW cmd ≠ 0#32 then .error .reservedField
  else build (cmdB cmd) (cmdW cmd)

/-- SET_CTRL reads B[0]; B[7:1] must be 0 (R74, R181). -/
def buildSetCtrl (b : Byte) : Except CmdCause Instr :=
  if b.extractLsb' 1 7 ≠ 0#7 then .error .reservedField else .ok (.setCtrl (b.getLsbD 0))

/-- GRP_DEC reads c0 from B and c1 .. c4 from W, most significant byte first (R71). -/
def buildGrpDec (b : Byte) (w : BitVec 32) : Instr :=
  .grpDec b (w.extractLsb' 24 8) (w.extractLsb' 16 8) (w.extractLsb' 8 8) (w.extractLsb' 0 8)

/-- G_CMP reads its selector from B; a selector above 3 is a bad operand (R71, R74). -/
def buildGCmp (b : Byte) (w : BitVec 32) : Except CmdCause Instr :=
  match b.toNat with
  | 0 => .ok (.gCmp .n w)
  | 1 => .ok (.gCmp .xor w)
  | 2 => .ok (.gCmp .sum w)
  | 3 => .ok (.gCmp .rot w)
  | _ => .error .badOperand

/-- The decoder of R74. The two flags of a row are the column "uses" of R72: B, then W. -/
def decode (cmd : Cmd) : Except CmdCause Instr :=
  match (cmdOpc cmd).toNat with
  | 0x00 => readFields cmd false false fun _ _ => .ok .nop
  | 0x01 => readFields cmd true  false fun b _ => buildSetCtrl b
  | 0x02 => readFields cmd false false fun _ _ => .ok .clrCmdErr
  | 0x10 => readFields cmd false true  fun _ w => .ok (.grpEnc w)
  | 0x11 => readFields cmd true  true  fun b w => .ok (buildGrpDec b w)
  | 0x20 => readFields cmd false false fun _ _ => .ok .encStart
  | 0x21 => readFields cmd true  false fun b _ => .ok (.encByte b)
  | 0x22 => readFields cmd false false fun _ _ => .ok .encEnd
  | 0x30 => readFields cmd false false fun _ _ => .ok .decStart
  | 0x31 => readFields cmd true  false fun b _ => .ok (.decChar b)
  | 0x32 => readFields cmd false false fun _ _ => .ok .decEnd
  | 0x40 => readFields cmd false false fun _ _ => .ok .gClear
  | 0x41 => readFields cmd true  false fun b _ => .ok (.gByte b)
  | 0x42 => readFields cmd true  true  fun b w => buildGCmp b w
  | _ => .error .reservedOpcode

/-- The selector code of G_CMP (R71). -/
def guardSelCode : GuardSel → Byte
  | .n => 0#8
  | .xor => 1#8
  | .sum => 2#8
  | .rot => 3#8

/-- A CMD64 word from its fields, RSV = 0 (R70). -/
def cmd64 (w : BitVec 32) (b : Byte) (opc : BitVec 8) : Cmd := w ++ 0#16 ++ b ++ opc

/-- The encoded word of each command (R79). -/
def encode : Instr → Cmd
  | .nop => cmd64 0 0 0x00
  | .setCtrl pad => cmd64 0 (if pad then 1 else 0) 0x01
  | .clrCmdErr => cmd64 0 0 0x02
  | .grpEnc w => cmd64 w 0 0x10
  | .grpDec c0 c1 c2 c3 c4 => cmd64 (c1 ++ c2 ++ c3 ++ c4) c0 0x11
  | .encStart => cmd64 0 0 0x20
  | .encByte b => cmd64 0 b 0x21
  | .encEnd => cmd64 0 0 0x22
  | .decStart => cmd64 0 0 0x30
  | .decChar c => cmd64 0 c 0x31
  | .decEnd => cmd64 0 0 0x32
  | .gClear => cmd64 0 0 0x40
  | .gByte b => cmd64 0 b 0x41
  | .gCmp sel w => cmd64 w (guardSelCode sel) 0x42

/-- The command the decoder reads from a word of the opcode table, whose bits are numbered as the command word's own (R70):
the command port takes the 64 bits at once, so no byte order is involved. `nbits` bits of `w` are given and the rest are 0.
Log entry 16. -/
def decodeTableWord (nbits w : Nat) : Option Instr :=
  if nbits ≤ 64 then
    match decode (BitVec.ofNat 64 (w % 2 ^ nbits)) with
    | .ok i => some i
    | .error _ => none
  else none

end Sys2Proof
end

