-- ==== Sys2Proof/Config.lean ====
section
/-! DEFINITION. The parameters of one block (spec 00_scope R5; 10_state R40, R42) and the free values the spec leaves open. -/

namespace Sys2Proof

/-- One entry of EXC: the single character `chr` stands for the group `key` (R42). -/
structure ExcEntry where
  key : Group
  chr : Byte
  deriving DecidableEq, Repr

/-- The parameters that are fixed for the life of a block (R5). The type admits more than CONFIG_OK does:
`WellFormed.lean` holds the checks of R7. -/
structure Config where
  /-- ALPHABET, indexed by digit value (R40). -/
  alphabet : List Byte
  /-- EXC, the exception table (R42). -/
  exc : List ExcEntry
  /-- OBUF_CAP, the capacity of the output buffer in bytes (R5, decision D12). -/
  obufCap : Nat
  deriving DecidableEq, Repr

/-- The n-th unspecified byte that READ_BUF draws (R53, I13): a free value under no law, so nothing can be proved of it.
Log entry 6. -/
opaque freeByte : Nat → Byte

end Sys2Proof
end

