-- ==== Sys2Proof/Machine/Presets.lean ====
section
/-! DEFINITION. The configuration values the spec spells out: the standard alphabet (10_state R41), the two exception presets (R42),
and the configuration that State.reset takes (log entry 3). -/

namespace Sys2Proof

/-- The standard alphabet: the printable-ASCII run `!` (0x21) .. `u` (0x75), so entry d is 0x21 + d (R41). -/
def standardAlphabet : List Byte := (List.range 85).map fun d => BitVec.ofNat 8 (0x21 + d)

/-- The zero-group preset of R42; its character is the parameter ZCHR (R5, decision D23). -/
def zeroGroupPreset (zchr : Byte) : ExcEntry := ⟨0x00000000#32, zchr⟩

/-- The all-space-group preset of R42; its character is the parameter YCHR (R5, decision D23). -/
def spaceGroupPreset (ychr : Byte) : ExcEntry := ⟨0x20202020#32, ychr⟩

/-- The configuration of State.reset. DESIGN CHOICE: the spec gives ALPHABET, EXC and OBUF_CAP no default (R5); log entry 3. -/
def Config.standard : Config where
  alphabet := standardAlphabet
  exc := []
  obufCap := 64

end Sys2Proof
end

