-- ==== Sys2Proof/Machine/State.lean ====
section
/-! DEFINITION. The state of the block (10_state R20 to R25, R40, R42, R45; 20_memory R50), the host's actions (R54, R220),
and the reasons a step can stop. -/

namespace Sys2Proof.Machine

open Sys2Proof

/-- OBUF: (index, byte) cells, indices strictly rising. An index without a cell holds no value of its own:
its content is unspecified (R45, R220, I13). Log entry 5. -/
abbrev Memory := List Host.Cell

/-- The canonical form of a memory: the cells' addresses strictly rise. An unlisted byte has no value, so no cell can equal one. -/
abbrev Memory.wf (m : Memory) : Prop := m.Pairwise fun c d => c.1 < d.1

/-- The fields of STAT (R21). Reserved bits read 0 and are not stored; `Stat.word` is the 32-bit register. Log entry 4. -/
structure Stat where
  state : StreamState
  err : StreamErr
  gerr : GroupErr
  gmatch : Bool
  cmdErr : Bool
  cmdCause : CmdCause
  deriving DecidableEq, Repr

/-- What the outside world does to the block: the host's three actions (R54) and the reset input (R220). -/
inductive HostAction where
  /-- ISSUE(cmd). -/
  | issue (cmd : Cmd)
  /-- READ_REG(i), an 8-bit index (R51). -/
  | readReg (i : BitVec 8)
  /-- READ_BUF(i), a 32-bit index (R51). -/
  | readBuf (i : BitVec 32)
  /-- Assert the reset input. -/
  | reset
  deriving DecidableEq, Repr

/-- What a read returns to the host (R51): 64 bits of a register, or one byte of the buffer. -/
inductive HostReply where
  | reg (v : BitVec 64)
  | buf (v : Byte)
  deriving DecidableEq, Repr

/-- Why the machine stops with a fault. -/
inductive Fault where
  /-- Raised by READ_BUF for an index below OLEN that OBUF does not have, i.e. of at least OBUF_CAP (R50). Safe: the model stops.
  By R26(e) no reachable state has such an index; log entry 13. -/
  | bufferIndexAbsent (i : Nat)
  deriving DecidableEq, Repr

/-- Why the model gives a step no meaning. -/
inductive Refusal where
  /-- Raised by an arm of `exec` whose instruction has no meaning yet; no arm raises it. Safe: the model stops. -/
  | notModelled (mnemonic : String)
  /-- Raised by every step of a block whose configuration is not CONFIG_OK: it is not an instance of the block (R7, R204).
  Safe: the model stops. -/
  | configNotOk
  /-- Raised by every step of a block whose OBUF_CAP is below 5 (R5) or does not fit the 32-bit OLEN (R20).
  Safe: the model stops; log entry 7. -/
  | capacityOutOfRange
  deriving DecidableEq, Repr

end Sys2Proof.Machine

namespace Sys2Proof.Machine

open Sys2Proof

/-- Everything the spec gives the block, and the three fields of the model's own at the end. -/
structure State where
  /-- ALPHABET, EXC, OBUF_CAP (R5, R40, R42); no step writes it (R210). -/
  cfg : Config
  /-- 0x00 STAT. -/
  stat : Stat
  /-- 0x01 CTRL: bit [0], PAD_FINAL (R23). Bits [31:1] read 0 and are not stored. -/
  padFinal : Bool
  /-- 0x02 OLEN: number of valid bytes in OBUF. -/
  olen : BitVec 32
  /-- 0x03 EBUF: the current partial input group, big-endian, left-aligned (R24). -/
  ebuf : BitVec 32
  /-- 0x04 EBCNT: number of bytes in EBUF. -/
  ebcnt : BitVec 2
  /-- 0x05 ECNT: count of bytes given to the encoder. -/
  ecnt : Counter
  /-- 0x06 ACC: digit accumulator of the current quintet. -/
  acc : BitVec 33
  /-- 0x07 DCNT: digits consumed in the current quintet. -/
  dcnt : BitVec 3
  /-- 0x08 LCNT: the decode length counter. -/
  lcnt : Counter
  /-- 0x09 QCHR: the five characters of the last GRP_ENC (R25). -/
  qchr : BitVec 40
  /-- 0x0A QDIG: the five digits of the last GRP_ENC (R25). -/
  qdig : BitVec 35
  /-- 0x0B GW: the group of the last successful GRP_DEC. -/
  gw : BitVec 32
  /-- 0x0C G_N: guard byte count. -/
  gN : Counter
  /-- 0x0D G_XOR: guard XOR checksum. -/
  gXor : BitVec 32
  /-- 0x0E G_SUM: guard sum checksum. -/
  gSum : BitVec 32
  /-- 0x0F G_ROT: guard rotate checksum. -/
  gRot : BitVec 32
  /-- OBUF (R50). -/
  obuf : Memory
  /-- The model's own: the host's actions not yet performed, oldest first. Log entry 1. -/
  pending : List HostAction
  /-- The model's own: what the last read returned to the host. Log entry 9. -/
  reply : Option HostReply
  /-- The model's own: how many unspecified bytes have been drawn. Log entry 6. -/
  draws : Nat
  deriving DecidableEq, Repr

/-- A block of configuration `c` right after reset: STAT = 0x00001000, every other register 0, no OBUF byte specified
(R45, R220, R221). The model's own fields are empty (log entries 1, 6, 9). -/
def State.resetOf (c : Config) : State where
  cfg := c
  stat :=
    { state := .idle, err := .none, gerr := .ok, gmatch := true, cmdErr := false, cmdCause := .none }
  padFinal := false
  olen := 0
  ebuf := 0
  ebcnt := 0
  ecnt := 0
  acc := 0
  dcnt := 0
  lcnt := 0
  qchr := 0
  qdig := 0
  gw := 0
  gN := 0
  gXor := 0
  gSum := 0
  gRot := 0
  obuf := []
  pending := []
  reply := none
  draws := 0

/-- The machine right after reset. The configuration is the model's choice (log entry 3); the registers are the spec's (R45). -/
def State.reset : State := State.resetOf Config.standard

end Sys2Proof.Machine
end

