-- ==== Sys2Proof/Machine/Flags.lean ====
section
/-! DEFINITION. The status fields: their codes and the register words they make (10_state R21, R23), and the computations of the
flags GMATCH and CMDERR and of the guard checksums (R27, R160 to R164, R182, R203). -/

namespace Sys2Proof

/-- STAT.STATE codes (R21). -/
def StreamState.code : StreamState → BitVec 3
  | .idle => 0#3
  | .enc => 1#3
  | .dec => 2#3
  | .done => 3#3
  | .err => 4#3

/-- STAT.ERR codes (R21, R200). -/
def StreamErr.code : StreamErr → BitVec 3
  | .none => 0#3
  | .unrecognizedChar => 1#3
  | .misplacedException => 2#3
  | .overflow => 3#3
  | .limit => 4#3

/-- STAT.GERR codes (R21, R200). -/
def GroupErr.code : GroupErr → BitVec 2
  | .ok => 0#2
  | .unrecognizedChar => 1#2
  | .overflow => 2#2

/-- STAT.CMDCAUSE codes (R21, R200). -/
def CmdCause.code : CmdCause → BitVec 3
  | .none => 0#3
  | .reservedOpcode => 1#3
  | .reservedField => 2#3
  | .badOperand => 3#3
  | .wrongState => 4#3
  | .limit => 5#3

namespace Machine

/-- The 32-bit STAT register, most significant field first, reserved bits 0 (R21). -/
def Stat.word (t : Stat) : BitVec 32 :=
  0#12 ++ t.cmdCause.code ++ BitVec.ofBool t.cmdErr ++ 0#3 ++ BitVec.ofBool t.gmatch ++ 0#2 ++
    t.gerr.code ++ 0#1 ++ t.err.code ++ 0#1 ++ t.state.code

/-- The 32-bit CTRL register: PAD_FINAL in bit [0], bits [31:1] read 0 (R23). -/
def ctrlWord (padFinal : Bool) : BitVec 32 := (BitVec.ofBool padFinal).setWidth 32

/-- GMATCH after a comparison: a mismatch clears it, a match leaves it (R164). -/
def gmatchAfter (old : Bool) (v expected : BitVec 32) : Bool := if v ≠ expected then false else old

/-- G_XOR after one byte (R161). -/
def xorAfter (x : BitVec 32) (b : Byte) : BitVec 32 := x ^^^ b.setWidth 32

/-- G_SUM after one byte: the byte and 1 are added modulo 2^32 (R161). -/
def sumAfter (x : BitVec 32) (b : Byte) : BitVec 32 := x + b.setWidth 32 + 1

/-- `rotl32(v, 1) = {v[30:0], v[31]}` (R9). -/
def rotl1 (v : BitVec 32) : BitVec 32 := v.extractLsb' 0 31 ++ v.extractLsb' 31 1

/-- G_ROT after one byte: rotate left by one, then add the byte modulo 2^32 (R161). -/
def rotAfter (x : BitVec 32) (b : Byte) : BitVec 32 := rotl1 x + b.setWidth 32

end Machine

end Sys2Proof
end

