-- ==== Sys2Proof/Machine/Operands.lean ====
section
/-! DEFINITION. Operand forms: the configuration lookups (00_scope R12), the byte and digit forms of a group
(R11, R56 to R58, R100, R102, R103, R106) and the packed registers (10_state R24, R25). -/

namespace Sys2Proof

/-- `Alpha(d)`, ALPHABET entry d (R12). Outside 0..84 of a CONFIG_OK block the spec has no entry; log entry 8. -/
def Config.alpha (c : Config) (d : Nat) : Byte := c.alphabet.getD d 0

/-- `CharMap(ch)`: the digit d with Alpha(d) = ch, or none (R12, R43). -/
def Config.charMap (c : Config) (ch : Byte) : Option Nat := c.alphabet.findIdx? fun a => a == ch

/-- `ExcChr(g)`: the chr of the EXC entry with key g, or none (R12). -/
def Config.excChr (c : Config) (g : Group) : Option Byte := (c.exc.find? fun e => e.key == g).map ExcEntry.chr

/-- `ExcKey(ch)`: the key of the EXC entry with chr ch, or none (R12). -/
def Config.excKey (c : Config) (ch : Byte) : Option Group := (c.exc.find? fun e => e.chr == ch).map ExcEntry.key

namespace Machine

/-- Four input bytes as a group, big-endian (R56). -/
def beGroup (b0 b1 b2 b3 : Byte) : Group := b0 ++ b1 ++ b2 ++ b3

/-- `BE4(g)`, the four bytes of a group, most significant first (R11, R57). -/
def be4 (g : Group) : List Byte :=
  [g.extractLsb' 24 8, g.extractLsb' 16 8, g.extractLsb' 8 8, g.extractLsb' 0 8]

/-- Input byte b at big-endian lane k of a group: `b << (24 - 8k)` (R24, R122). -/
def byteLane (k : Nat) (b : Byte) : Group := b.setWidth 32 <<< (24 - 8 * k)

/-- Radix-85 digit i of a group, digit 0 the most significant (R58, R100). -/
def digit (g : Group) (i : Nat) : Nat := g.toNat / 85 ^ (4 - i) % 85

/-- `EncDigits(g)` (R100). -/
def encDigits (g : Group) : List Nat := [digit g 0, digit g 1, digit g 2, digit g 3, digit g 4]

/-- `EncGroup(g)`: the five characters of a group (R100). -/
def encGroup (c : Config) (g : Group) : List Byte := (encDigits g).map c.alpha

/-- `Fold(acc, d)`, exact (R102). -/
def fold (acc d : Nat) : Nat := acc * 85 + d

/-- The synthetic digit 84 folded in n times (R145). -/
def foldPad : Nat → Nat → Nat
  | 0, acc => acc
  | n + 1, acc => foldPad n (fold acc 84)

/-- `DecGroup(v)`: none for Overflow, otherwise the group whose four bytes are `BE4(v)`; the comparison is strict (R103, R144). -/
def decGroup (v : Nat) : Option Group := if v > maxGroup then none else some (BitVec.ofNat 32 v)

/-- The value of a character sequence folded onto acc, or none at the first character that is no digit (R104). -/
def quintetValue (c : Config) : List Byte → Nat → Option Nat
  | [], acc => some acc
  | ch :: chs, acc =>
    match c.charMap ch with
    | none => none
    | some d => quintetValue c chs (fold acc d)

/-- QDIG: five digits of 7 bits each, digit 0 in bits [34:28] (R25). -/
def packDigits (g : Group) : BitVec 35 :=
  BitVec.ofNat 7 (digit g 0) ++ BitVec.ofNat 7 (digit g 1) ++ BitVec.ofNat 7 (digit g 2) ++
    BitVec.ofNat 7 (digit g 3) ++ BitVec.ofNat 7 (digit g 4)

/-- QCHR: five characters of 8 bits each, Alpha(digit 0) in bits [39:32] (R25). -/
def packChars (c : Config) (g : Group) : BitVec 40 :=
  c.alpha (digit g 0) ++ c.alpha (digit g 1) ++ c.alpha (digit g 2) ++
    c.alpha (digit g 3) ++ c.alpha (digit g 4)

/-- The guard field a selector names (R164). -/
def guardField (sel : GuardSel) (s : State) : BitVec 32 :=
  match sel with
  | .n => s.gN
  | .xor => s.gXor
  | .sum => s.gSum
  | .rot => s.gRot

end Machine

end Sys2Proof
end

