-- ==== Sys2Proof/Machine/Ops.lean ====
section
/-! DEFINITION. The named operations: OBUF (00_scope R11), the error records and how they are left (R13, R201 to R205),
the state check (R75), and the host's reads (R52, R53). -/

namespace Sys2Proof.Machine

open Sys2Proof

/-- The byte at index a, or none where no byte has been written: its content is unspecified (R53, I13). -/
def Memory.read : Memory → Nat → Option Byte
  | [], _ => none
  | (k, v) :: m, a => if k = a then some v else Memory.read m a

/-- `MemWrite(a, 1, v)` (R11). -/
def Memory.write : Memory → Nat → Byte → Memory
  | [], a, v => [(a, v)]
  | (k, w) :: m, a, v =>
    if a < k then (a, v) :: (k, w) :: m
    else if a = k then (a, v) :: m
    else (k, w) :: Memory.write m a v

/-- The bytes bs at a, a + 1, ... in order (R11). -/
def Memory.store : Memory → Nat → List Byte → Memory
  | m, _, [] => m
  | m, a, b :: bs => Memory.store (Memory.write m a b) (a + 1) bs

/-- `Append(bs)`: the bytes go to OBUF indices OLEN, OLEN + 1, ... and OLEN grows by their number (R11). -/
def append (bs : List Byte) (s : State) : State :=
  { s with
    obuf := s.obuf.store s.olen.toNat bs
    olen := BitVec.ofNat 32 (s.olen.toNat + bs.length) }

/-- `Truncate(p)`: OLEN <- max(0, OLEN - p); OBUF keeps its bytes (R11, decision D13). -/
def truncate (p : Nat) (s : State) : State := { s with olen := BitVec.ofNat 32 (s.olen.toNat - p) }

/-- `Clear()`: OLEN <- 0; OBUF keeps its bytes (R11). -/
def clear (s : State) : State := { s with olen := 0 }

/-- Append where the bytes fit in OBUF_CAP, and the stream error LIMIT where they would not (R123, R124, R142, R143). -/
def appendOrLimit (bs : List Byte) (s : State) : Except StreamErr State :=
  if s.olen.toNat + bs.length > s.cfg.obufCap then .error .limit else .ok (append bs s)

/-- `raise StreamError(code)`, the block's way of taking a stream error: ERR <- code, STATE <- ERR, OLEN <- 0 (R13, R201). -/
def streamError (code : StreamErr) (s : State) : State :=
  clear { s with stat := { s.stat with err := code, state := .err } }

/-- A stream error is left, and an old operation abandoned, by beginning a new one: OLEN <- 0, ERR <- NONE, STATE <- st
(R121, R141, R205). -/
def beginStream (st : StreamState) (s : State) : State :=
  clear { s with stat := { s.stat with err := .none, state := st } }

/-- STATE <- DONE (R126, R145). -/
def finishStream (s : State) : State := { s with stat := { s.stat with state := .done } }

/-- `raise CmdError(cause)`: CMDERR <- 1 and CMDCAUSE <- cause, nothing else (R13, R203). -/
def cmdError (cause : CmdCause) (s : State) : State :=
  { s with stat := { s.stat with cmdErr := true, cmdCause := cause } }

/-- CMDERR is left by clearing it (R182, R205). -/
def clearCmdError (s : State) : State :=
  { s with stat := { s.stat with cmdErr := false, cmdCause := .none } }

/-- `GroupResult(code)`: GERR <- code, nothing else (R13, R202). -/
def groupResult (code : GroupErr) (s : State) : State := { s with stat := { s.stat with gerr := code } }

/-- The state check of R75 for a stream command that runs in `want`: it is ignored in ERR and rejected elsewhere. -/
def inStream (want : StreamState) (run : State → State) (s : State) : State :=
  if s.stat.state = want then run s
  else if s.stat.state = .err then s
  else cmdError .wrongState s

/-- `zext_64(x[i])` for the 16 registers of R20, and 0 for every other index (R52, decision D21). -/
def regRead (i : BitVec 8) (s : State) : BitVec 64 :=
  match i.toNat with
  | 0x00 => s.stat.word.setWidth 64
  | 0x01 => (ctrlWord s.padFinal).setWidth 64
  | 0x02 => s.olen.setWidth 64
  | 0x03 => s.ebuf.setWidth 64
  | 0x04 => s.ebcnt.setWidth 64
  | 0x05 => s.ecnt.setWidth 64
  | 0x06 => s.acc.setWidth 64
  | 0x07 => s.dcnt.setWidth 64
  | 0x08 => s.lcnt.setWidth 64
  | 0x09 => s.qchr.setWidth 64
  | 0x0A => s.qdig.setWidth 64
  | 0x0B => s.gw.setWidth 64
  | 0x0C => s.gN.setWidth 64
  | 0x0D => s.gXor.setWidth 64
  | 0x0E => s.gSum.setWidth 64
  | 0x0F => s.gRot.setWidth 64
  | _ => 0

/-- An unspecified byte is returned to the host: the next free byte, and the draw is counted (R53, I13). Log entry 6. -/
def replyUnspecified (s : State) : State :=
  { s with reply := some (.buf (freeByte s.draws)), draws := s.draws + 1 }

/-- `READ_BUF(i)`: OBUF byte i below OLEN, an unspecified byte from OLEN on (R53). A byte below OLEN that nothing has written is
unspecified too (R45). An index OBUF does not have faults (R50); log entry 13. -/
def readBuf (i : BitVec 32) (s : State) : Host.Outcome State Fault Refusal :=
  if i.toNat < s.olen.toNat then
    if i.toNat < s.cfg.obufCap then
      match s.obuf.read i.toNat with
      | some v => .next { s with reply := some (.buf v) }
      | none => .next (replyUnspecified s)
    else .fault (.bufferIndexAbsent i.toNat)
  else .next (replyUnspecified s)

/-- `READ_REG(i)` (R52). -/
def readReg (i : BitVec 8) (s : State) : Host.Outcome State Fault Refusal :=
  .next { s with reply := some (.reg (regRead i s)) }

/-- The reset input: the reset registers, OBUF unspecified, the configuration kept (R220). The host's remaining actions, its last
reply and the count of draws are not the block's and stay; log entry 10. -/
def resetInput (s : State) : State :=
  { State.resetOf s.cfg with pending := s.pending, reply := s.reply, draws := s.draws }

/-- The valid bytes of OBUF, `OBUF[0 : OLEN]`, in order; none marks an unspecified one (R50). -/
def output (s : State) : List (Option Byte) := (List.range s.olen.toNat).map s.obuf.read

end Sys2Proof.Machine
end

