-- ==== Sys2Proof/Machine/Control.lean ====
section
/-! DEFINITION. The control commands NOP, SET_CTRL, CLR_CMDERR (44_control R180 to R182). -/

namespace Sys2Proof.Machine

open Sys2Proof

/-- NOP (R180). -/
def execNop (s : State) : Host.Outcome State Fault Refusal := .next s

/-- SET_CTRL: PAD_FINAL <- B[0]; rejected in ENC and DEC (R181, R75). -/
def execSetCtrl (pad : Bool) (s : State) : Host.Outcome State Fault Refusal :=
  if s.stat.state = .enc ∨ s.stat.state = .dec then .next (cmdError .wrongState s)
  else .next { s with padFinal := pad }

/-- CLR_CMDERR (R182). -/
def execClrCmdErr (s : State) : Host.Outcome State Fault Refusal := .next (clearCmdError s)

end Sys2Proof.Machine
end

