-- ==== Sys2Proof/Machine/Group.lean ====
section
/-! DEFINITION. The group codec commands GRP_ENC and GRP_DEC (40_group_codec R101, R104). -/

namespace Sys2Proof.Machine

open Sys2Proof

/-- GRP_ENC: QDIG and QCHR of the group, GERR OK; no exception is substituted (R101, decision D18). -/
def execGrpEnc (w : Group) (s : State) : Host.Outcome State Fault Refusal :=
  .next (groupResult .ok { s with qdig := packDigits w, qchr := packChars s.cfg w })

/-- What GRP_DEC does with five characters: a character that is no digit is reported before an overflow, and either leaves GW (R104). -/
def decodeQuintet (chs : List Byte) (s : State) : State :=
  match quintetValue s.cfg chs 0 with
  | none => groupResult .unrecognizedChar s
  | some v =>
    match decGroup v with
    | none => groupResult .overflow s
    | some g => groupResult .ok { s with gw := g }

/-- GRP_DEC (R104). -/
def execGrpDec (c0 c1 c2 c3 c4 : Byte) (s : State) : Host.Outcome State Fault Refusal :=
  .next (decodeQuintet [c0, c1, c2, c3, c4] s)

end Sys2Proof.Machine
end

