-- ==== Sys2Proof/Machine/Guard.lean ====
section
/-! DEFINITION. The BTOA guard checksum commands G_CLEAR, G_BYTE, G_CMP (43_guard_checksum R160 to R164). -/

namespace Sys2Proof.Machine

open Sys2Proof

/-- G_CLEAR (R160). -/
def execGClear (s : State) : Host.Outcome State Fault Refusal :=
  .next { s with gN := 0, gXor := 0, gSum := 0, gRot := 0, stat := { s.stat with gmatch := true } }

/-- G_BYTE: rejected with LIMIT at G_N = MAXCNT; otherwise the three checksums read the values before the command (R161, R163). -/
def execGByte (b : Byte) (s : State) : Host.Outcome State Fault Refusal :=
  if s.gN.toNat = maxCnt then .next (cmdError .limit s)
  else
    .next
      { s with
        gN := s.gN + 1
        gXor := xorAfter s.gXor b
        gSum := sumAfter s.gSum b
        gRot := rotAfter s.gRot b }

/-- G_CMP (R164). -/
def execGCmp (sel : GuardSel) (w : BitVec 32) (s : State) : Host.Outcome State Fault Refusal :=
  .next { s with stat := { s.stat with gmatch := gmatchAfter s.stat.gmatch (guardField sel s) w } }

end Sys2Proof.Machine
end

