-- ==== Sys2Proof/Machine/StreamDecode.lean ====
section
/-! DEFINITION. The stream decoder DEC_START, DEC_CHAR, DEC_END (42_stream_decode R141 to R145). -/

namespace Sys2Proof.Machine

open Sys2Proof

/-- DEC_START (R141). -/
def execDecStart (s : State) : Host.Outcome State Fault Refusal :=
  .next { beginStream .dec s with acc := 0, dcnt := 0, lcnt := 0 }

/-- DEC_CHAR of an alphabet digit d (R142). The accumulator is an exact number until it is written back (R102, R144);
log entry 17. -/
def decodeDigit (d : Nat) (s : State) : State :=
  if s.lcnt.toNat + 1 > maxCnt then streamError .limit s
  else
    let s1 := { s with lcnt := s.lcnt + 1 }
    let acc := fold s.acc.toNat d
    let j := s.dcnt.toNat + 1
    if j = 5 then
      match decGroup acc with
      | none => streamError .overflow s1
      | some g =>
        match appendOrLimit (be4 g) s1 with
        | .error e => streamError e s1
        | .ok s2 => { s2 with acc := 0, dcnt := 0 }
    else { s1 with acc := BitVec.ofNat 33 acc, dcnt := BitVec.ofNat 3 j }

/-- DEC_CHAR of the exception character of group g: 1 for the character and 4 of compensation (R142). -/
def decodeException (g : Group) (s : State) : State :=
  if s.dcnt.toNat ≠ 0 then streamError .misplacedException s
  else if s.lcnt.toNat + 5 > maxCnt then streamError .limit s
  else
    match appendOrLimit (be4 g) s with
    | .error e => streamError e s
    | .ok s1 => { s1 with lcnt := s.lcnt + 5 }

/-- The pseudocode of DEC_CHAR in state DEC: the alphabet before the exceptions (R142). -/
def decodeChar (ch : Byte) (s : State) : State :=
  match s.cfg.charMap ch with
  | some d => decodeDigit d s
  | none =>
    match s.cfg.excKey ch with
    | some g => decodeException g s
    | none => streamError .unrecognizedChar s

/-- DEC_CHAR (R142, R75). -/
def execDecChar (ch : Byte) (s : State) : Host.Outcome State Fault Refusal :=
  .next (inStream .dec (decodeChar ch) s)

/-- The pseudocode of DEC_END in state DEC (R145). origLength can pass below 0, so it is an integer here; only its distance from
LCNT is used (log entry 11). -/
def decodeEnd (s : State) : State :=
  let r := s.lcnt.toNat % 5
  if r ≠ 0 then
    let p := 5 - r
    let length : Int := s.lcnt.toNat
    let origLength : Int := length - p
    match decGroup (foldPad p s.acc.toNat) with
    | none => streamError .overflow s
    | some g =>
      match appendOrLimit (be4 g) s with
      | .error e => streamError e s
      | .ok s1 =>
        let s2 := { s1 with acc := 0, dcnt := 0 }
        finishStream
          (if s.padFinal = false ∧ length ≠ origLength then truncate (length - origLength).toNat s2 else s2)
  else finishStream s

/-- DEC_END (R145, R75). -/
def execDecEnd (s : State) : Host.Outcome State Fault Refusal := .next (inStream .dec decodeEnd s)

end Sys2Proof.Machine
end

