-- ==== Sys2Proof/Machine/StreamEncode.lean ====
section
/-! DEFINITION. The stream encoder ENC_START, ENC_BYTE, ENC_END (41_stream_encode R121 to R126). -/

namespace Sys2Proof.Machine

open Sys2Proof

/-- The characters of one group: its exception character, and five digits only where it has none (R123). -/
def groupChars (c : Config) (g : Group) : List Byte :=
  match c.excChr g with
  | some ch => [ch]
  | none => encGroup c g

/-- `EmitGroup(g)` (R123). -/
def emitGroup (g : Group) (s : State) : Except StreamErr State := appendOrLimit (groupChars s.cfg g) s

/-- ENC_START (R121). -/
def execEncStart (s : State) : Host.Outcome State Fault Refusal :=
  .next { beginStream .enc s with ebuf := 0, ebcnt := 0, ecnt := 0 }

/-- The pseudocode of ENC_BYTE in state ENC (R122). When EmitGroup raises, ECNT has been counted and EBUF, EBCNT keep their values. -/
def encodeByte (b : Byte) (s : State) : State :=
  if s.ecnt.toNat = maxCnt then streamError .limit s
  else
    let s1 := { s with ecnt := s.ecnt + 1 }
    let k := s.ebcnt.toNat
    if k < 3 then { s1 with ebuf := s.ebuf ||| byteLane k b, ebcnt := BitVec.ofNat 2 (k + 1) }
    else
      match emitGroup (s.ebuf ||| b.setWidth 32) s1 with
      | .error e => streamError e s1
      | .ok s2 => { s2 with ebuf := 0, ebcnt := 0 }

/-- ENC_BYTE (R122, R75). -/
def execEncByte (b : Byte) (s : State) : Host.Outcome State Fault Refusal :=
  .next (inStream .enc (encodeByte b) s)

/-- The pseudocode of ENC_END in state ENC: the capacity check precedes the truncation (R126). -/
def encodeEnd (s : State) : State :=
  let p := (4 - s.ebcnt.toNat) % 4
  if p ≠ 0 then
    match emitGroup s.ebuf s with
    | .error e => streamError e s
    | .ok s1 =>
      let s2 := { s1 with ebuf := 0, ebcnt := 0 }
      finishStream (if s.padFinal = false then truncate p s2 else s2)
  else finishStream s

/-- ENC_END (R126, R75). -/
def execEncEnd (s : State) : Host.Outcome State Fault Refusal := .next (inStream .enc encodeEnd s)

end Sys2Proof.Machine
end

