-- ==== Sys2Proof/Machine/Dispatch.lean ====
section
/-! DEFINITION. The dispatch of a decoded command to its meaning: one arm for each constructor of Instr. -/

namespace Sys2Proof.Machine

open Sys2Proof

def exec (i : Instr) (s : State) : Host.Outcome State Fault Refusal :=
  match i with
  | .nop => Sys2Proof.Machine.execNop s
  | .setCtrl pad => Sys2Proof.Machine.execSetCtrl pad s
  | .clrCmdErr => Sys2Proof.Machine.execClrCmdErr s
  | .grpEnc w => Sys2Proof.Machine.execGrpEnc w s
  | .grpDec c0 c1 c2 c3 c4 => Sys2Proof.Machine.execGrpDec c0 c1 c2 c3 c4 s
  | .encStart => Sys2Proof.Machine.execEncStart s
  | .encByte b => Sys2Proof.Machine.execEncByte b s
  | .encEnd => Sys2Proof.Machine.execEncEnd s
  | .decStart => Sys2Proof.Machine.execDecStart s
  | .decChar c => Sys2Proof.Machine.execDecChar c s
  | .decEnd => Sys2Proof.Machine.execDecEnd s
  | .gClear => Sys2Proof.Machine.execGClear s
  | .gByte b => Sys2Proof.Machine.execGByte b s
  | .gCmp sel w => Sys2Proof.Machine.execGCmp sel w s

end Sys2Proof.Machine
end

