-- ==== Sys2Proof/WellFormed.lean ====
section
/-! DEFINITION. What is well formed: a configuration (00_scope R5, R7) and a command word (30_encoding R74, opcode_table.json).
The operand types of `Instr` admit no ill-formed command, so its checks are made on the word. -/

namespace Sys2Proof

/-- The members of `xs` are pairwise distinct. -/
def allDistinct {α : Type} [DecidableEq α] : List α → Bool
  | [] => true
  | x :: xs => xs.all (fun y => decide (y ≠ x)) && allDistinct xs

namespace Config

/-- R7(a): ALPHABET has exactly 85 entries. -/
def lengthOk (c : Config) : Bool := c.alphabet.length == 85

/-- R7(b): the entries of ALPHABET are pairwise distinct. -/
def alphabetDistinct (c : Config) : Bool := allDistinct c.alphabet

/-- R7(d), first half: the EXC keys are pairwise distinct. -/
def keysDistinct (c : Config) : Bool := allDistinct (c.exc.map ExcEntry.key)

/-- R7(d), second half: the EXC characters are pairwise distinct. -/
def chrsDistinct (c : Config) : Bool := allDistinct (c.exc.map ExcEntry.chr)

/-- R7(e): no EXC character equals an ALPHABET entry. -/
def excOutsideAlphabet (c : Config) : Bool :=
  c.exc.all fun e => c.alphabet.all fun a => decide (a ≠ e.chr)

/-- CONFIG_OK (R7). Clause (c), one character for each EXC entry, holds by the type of `ExcEntry.chr`. -/
def configOk (c : Config) : Bool :=
  c.lengthOk && c.alphabetDistinct && c.keysDistinct && c.chrsDistinct && c.excOutsideAlphabet

/-- OBUF_CAP is at least 5 (R5) and no more than the 32-bit OLEN can count (R20, R10). Log entry 7. -/
def capacityOk (c : Config) : Bool := decide (5 ≤ c.obufCap) && decide (c.obufCap ≤ 4294967295)

end Config

/-- One row of spec/opcode_table.json. -/
structure OpcodeRow where
  mnemonic : String
  pattern : Cmd
  mask : Cmd
  deriving DecidableEq, Repr

/-- spec/opcode_table.json, row by row: its mnemonic, match and mask. -/
def opcodeTable : List OpcodeRow := [
  ⟨"NOP",        0x0000000000000000#64, 0xFFFFFFFFFFFFFFFF#64⟩,
  ⟨"SET_CTRL",   0x0000000000000001#64, 0xFFFFFFFFFFFFFEFF#64⟩,
  ⟨"CLR_CMDERR", 0x0000000000000002#64, 0xFFFFFFFFFFFFFFFF#64⟩,
  ⟨"GRP_ENC",    0x0000000000000010#64, 0x00000000FFFFFFFF#64⟩,
  ⟨"GRP_DEC",    0x0000000000000011#64, 0x00000000FFFF00FF#64⟩,
  ⟨"ENC_START",  0x0000000000000020#64, 0xFFFFFFFFFFFFFFFF#64⟩,
  ⟨"ENC_BYTE",   0x0000000000000021#64, 0xFFFFFFFFFFFF00FF#64⟩,
  ⟨"ENC_END",    0x0000000000000022#64, 0xFFFFFFFFFFFFFFFF#64⟩,
  ⟨"DEC_START",  0x0000000000000030#64, 0xFFFFFFFFFFFFFFFF#64⟩,
  ⟨"DEC_CHAR",   0x0000000000000031#64, 0xFFFFFFFFFFFF00FF#64⟩,
  ⟨"DEC_END",    0x0000000000000032#64, 0xFFFFFFFFFFFFFFFF#64⟩,
  ⟨"G_CLEAR",    0x0000000000000040#64, 0xFFFFFFFFFFFFFFFF#64⟩,
  ⟨"G_BYTE",     0x0000000000000041#64, 0xFFFFFFFFFFFF00FF#64⟩,
  ⟨"G_CMP",      0x0000000000000042#64, 0x00000000FFFF00FF#64⟩]

/-- The decode test of R74: `(cmd & mask) = match`. -/
def OpcodeRow.accepts (r : OpcodeRow) (cmd : Cmd) : Bool := cmd &&& r.mask == r.pattern

/-- A G_CMP selector above 3 passes the mask but is a bad operand (R74, note of the row G_CMP). -/
def guardSelectorOk (cmd : Cmd) : Bool :=
  !(cmd &&& 0xFF#64 == 0x42#64) || decide ((cmd >>> 8 &&& 0xFF#64).toNat ≤ 3)

/-- The words R74 accepts: some row of the table matches, and a G_CMP selects one of the four guard fields. -/
def cmdWellFormed (cmd : Cmd) : Bool :=
  opcodeTable.any (fun r => r.accepts cmd) && guardSelectorOk cmd

end Sys2Proof
end

