-- ==== Sys2Proof/Machine/Port.lean ====
section
/-! DEFINITION. What one action of the outside world does to the block (20_memory R51 to R54; 30_encoding R74; 70_reset R220). -/

namespace Sys2Proof.Machine

open Sys2Proof

/-- `ISSUE(cmd)`: a word that decodes runs whole, and one that does not is a command error (R54, R74, R203). -/
def issue (cmd : Cmd) (s : State) : Host.Outcome State Fault Refusal :=
  match decode cmd with
  | .error cause => .next (cmdError cause s)
  | .ok i => exec i s

/-- One action. -/
def perform (a : HostAction) (s : State) : Host.Outcome State Fault Refusal :=
  match a with
  | .issue cmd => issue cmd s
  | .readReg i => readReg i s
  | .readBuf i => readBuf i s
  | .reset => .next (resetInput s)

/-- Why a configuration is no instance of the block, or none (R5, R7, R204). -/
def configRefusal (c : Config) : Option Refusal :=
  if c.configOk = false then some .configNotOk
  else if c.capacityOk = false then some .capacityOutOfRange
  else none

/-- The oldest pending action is taken and performed; with none the block holds its state (R54, R215). Log entry 1. -/
def takeAction (s : State) : Host.Outcome State Fault Refusal :=
  match s.pending with
  | [] => .next s
  | a :: rest => perform a { s with pending := rest }

end Sys2Proof.Machine
end

