-- ==== Sys2Proof/Machine/Step.lean ====
section
/-! DEFINITION. One step: one action of the outside world, on a block whose configuration is an instance (R7, R54, R237). -/

namespace Sys2Proof.Machine

open Sys2Proof

/-- One step. A configuration that is no instance of the block has no step (R7, decision D5). Log entry 8. -/
def step (s : State) : Host.Outcome State Fault Refusal :=
  match configRefusal s.cfg with
  | some r => .refused r
  | none => takeAction s

/-- s with the command word w, of `nbits` bits, as the host's next action: the block fetches nothing (R65), so its next instruction
is the oldest pending ISSUE. Log entries 2 and 16. -/
def State.withFetchWord (s : State) (nbits w : Nat) : State :=
  { s with pending := .issue (BitVec.ofNat 64 (w % 2 ^ nbits)) :: s.pending }

end Sys2Proof.Machine
end

