-- ==== Sys2Proof/Machine/Assembler.lean ====
section
/-! DEFINITION. Assembler lines and pseudo-instructions (30_encoding R77, R78). A line is its mnemonic and its operands, already split
at the commas; cutting text into them is the assembler's lexing and is left out (log entry 15). -/

namespace Sys2Proof.Machine

open Sys2Proof

/-- An operand as R77 writes it: a number, a quoted character, a quoted string, or a bare name. -/
inductive AsmOperand where
  | num (n : Nat)
  | chr (ch : Char)
  | str (text : String)
  | name (text : String)
  deriving DecidableEq, Repr

/-- A byte or character operand: a number or a quoted character (R77), of 8 bits (R6). -/
def asmByte : AsmOperand → Option Byte
  | .num n => if n < 256 then some (BitVec.ofNat 8 n) else none
  | .chr ch => if ch.toNat < 256 then some (BitVec.ofNat 8 ch.toNat) else none
  | .str _ => none
  | .name _ => none

/-- A 32-bit number (R77). -/
def asmWord : AsmOperand → Option (BitVec 32)
  | .num n => if n < 2 ^ 32 then some (BitVec.ofNat 32 n) else none
  | .chr _ => none
  | .str _ => none
  | .name _ => none

/-- The operand of SET_CTRL: 0 or 1 (R77). -/
def asmBit : AsmOperand → Option Bool
  | .num 0 => some false
  | .num 1 => some true
  | _ => none

/-- The selector of G_CMP: N, XOR, SUM, ROT or 0 to 3 (R77). -/
def asmSelector : AsmOperand → Option GuardSel
  | .num 0 => some .n
  | .num 1 => some .xor
  | .num 2 => some .sum
  | .num 3 => some .rot
  | .name t =>
    if t = "N" then some .n
    else if t = "XOR" then some .xor
    else if t = "SUM" then some .sum
    else if t = "ROT" then some .rot
    else none
  | _ => none

/-- The five characters of GRP_DEC: five operands, or one five-character string (R77). -/
def asmQuintet : List AsmOperand → Option (List Byte)
  | [.str t] =>
    let cs := t.toList
    if cs.length = 5 then cs.mapM fun ch => asmByte (.chr ch) else none
  | ops => if ops.length = 5 then ops.mapM asmByte else none

/-- The command of five characters. -/
def grpDecOf : List Byte → Option Instr
  | [c0, c1, c2, c3, c4] => some (.grpDec c0 c1 c2 c3 c4)
  | _ => none

/-- One assembler line (R77); none where the line is not of its form. -/
def assemble (mnemonic : String) (ops : List AsmOperand) : Option Instr :=
  match ops with
  | [] =>
    if mnemonic = "NOP" then some .nop
    else if mnemonic = "CLR_CMDERR" then some .clrCmdErr
    else if mnemonic = "ENC_START" then some .encStart
    else if mnemonic = "ENC_END" then some .encEnd
    else if mnemonic = "DEC_START" then some .decStart
    else if mnemonic = "DEC_END" then some .decEnd
    else if mnemonic = "G_CLEAR" then some .gClear
    else none
  | [a] =>
    if mnemonic = "SET_CTRL" then (asmBit a).map .setCtrl
    else if mnemonic = "GRP_ENC" then (asmWord a).map .grpEnc
    else if mnemonic = "GRP_DEC" then (asmQuintet [a]).bind grpDecOf
    else if mnemonic = "ENC_BYTE" then (asmByte a).map .encByte
    else if mnemonic = "DEC_CHAR" then (asmByte a).map .decChar
    else if mnemonic = "G_BYTE" then (asmByte a).map .gByte
    else none
  | [a, b] =>
    if mnemonic = "G_CMP" then (asmSelector a).bind fun sel => (asmWord b).map (.gCmp sel) else none
  | _ => if mnemonic = "GRP_DEC" then (asmQuintet ops).bind grpDecOf else none

/-- The pseudo-instructions of R78. -/
inductive Pseudo where
  | encode (x : List Byte)
  | decode (chs : List Byte)
  | guard (x : List Byte)
  | validate (nDec nHex gx gs gr : BitVec 32)
  deriving DecidableEq, Repr

/-- The expansions of R78. -/
def Pseudo.expand : Pseudo → List Instr
  | .encode x => .encStart :: x.map .encByte ++ [.encEnd]
  | .decode chs => .decStart :: chs.map .decChar ++ [.decEnd]
  | .guard x => .gClear :: x.map .gByte
  | .validate nDec nHex gx gs gr =>
    [.gCmp .n nDec, .gCmp .n nHex, .gCmp .xor gx, .gCmp .sum gs, .gCmp .rot gr]

/-- The host's actions that issue these commands in order, each as its encoded word (R54, R79). -/
def issueAll (is : List Instr) : List HostAction := is.map fun i => .issue (encode i)

end Sys2Proof.Machine
end

