-- ==== Sys2Proof/Machine/Reference.lean ====
section
/-! DEFINITION. The source's algorithms as functions of a whole input: Encode (41_stream_encode R120), Decode (42_stream_decode R140),
Generate and validate (43_guard_checksum R162, R165). The commands compute them one element at a time (R125, R146, R161). -/

namespace Sys2Proof.Machine

open Sys2Proof

/-- p, the number of zero bytes that make n a multiple of 4 (R120 step 1). -/
def padCount (n : Nat) : Nat := (4 - n % 4) % 4

/-- The 4-byte chunks of a sequence as big-endian groups (R120 step 2). A rest of fewer than 4 bytes is no chunk. -/
def groupsOf : List Byte → List Group
  | b0 :: b1 :: b2 :: b3 :: rest => beGroup b0 b1 b2 b3 :: groupsOf rest
  | _ => []

/-- The zero-padded input of R120 step 1. -/
def zeroPadded (x : List Byte) : List Byte := x ++ List.replicate (padCount x.length) 0

/-- The characters of R120 before its step 4 removes any. -/
def encodeUntruncated (c : Config) (x : List Byte) : List Byte := (groupsOf (zeroPadded x)).flatMap (groupChars c)

/-- `Encode(x, pad)` (R120). Natural subtraction is the max(0, ...) of decision D13. -/
def encodeAll (c : Config) (x : List Byte) (pad : Bool) : List Byte :=
  let out := encodeUntruncated c x
  if padCount x.length ≠ 0 ∧ pad = false then out.take (out.length - padCount x.length) else out

/-- The variables of R140 during its scan. -/
structure Scan where
  group : Nat
  j : Nat
  length : Nat
  out : List Byte
  deriving DecidableEq, Repr

/-- One character of R140 step 3. -/
def scanChar (c : Config) (ch : Byte) (v : Scan) : Except StreamErr Scan :=
  match c.charMap ch with
  | some d =>
    let group := v.group * 85 + d
    if v.j + 1 = 5 then
      match decGroup group with
      | none => .error .overflow
      | some g => .ok { v with group := 0, j := 0, out := v.out ++ be4 g }
    else .ok { v with group := group, j := v.j + 1 }
  | none =>
    match c.excKey ch with
    | some g =>
      if v.j ≠ 0 then .error .misplacedException
      else .ok { v with out := v.out ++ be4 g, length := v.length + 4 }
    | none => .error .unrecognizedChar

/-- R140 step 3 over the whole input, left to right. -/
def scanAll (c : Config) : List Byte → Scan → Except StreamErr Scan
  | [], v => .ok v
  | ch :: chs, v =>
    match scanChar c ch v with
    | .error e => .error e
    | .ok v' => scanAll c chs v'

/-- R140 steps 4 and 5. The truncation is by length - origLength, the number of synthetic digits (decision D14). -/
def finishScan (v : Scan) (pad : Bool) : Except StreamErr (List Byte) :=
  if v.length % 5 ≠ 0 then
    let p := 5 - v.length % 5
    match decGroup (foldPad p v.group) with
    | none => .error .overflow
    | some g =>
      let out := v.out ++ be4 g
      .ok (if pad = false then out.take (out.length - p) else out)
  else .ok v.out

/-- `Decode(s, pad)` (R140). -/
def decodeAll (c : Config) (chs : List Byte) (pad : Bool) : Except StreamErr (List Byte) :=
  if chs = [] then .ok []
  else
    match scanAll c chs { group := 0, j := 0, length := chs.length, out := [] } with
    | .error e => .error e
    | .ok v => finishScan v pad

/-- The tuple of R162, as numbers. -/
structure GuardTuple where
  n : Nat
  xor : Nat
  sum : Nat
  rot : Nat
  deriving DecidableEq, Repr

/-- One byte of R162, in numbers: mod32(sum + (b + 1)), and rotl32(rot, 1) as the doubled value with bit 31 carried to bit 0. -/
def guardByte (t : GuardTuple) (b : Byte) : GuardTuple where
  n := t.n + 1
  xor := t.xor ^^^ b.toNat
  sum := (t.sum + (b.toNat + 1)) % 2 ^ 32
  rot := (t.rot * 2 % 2 ^ 32 + t.rot / 2 ^ 31 + b.toNat) % 2 ^ 32

/-- `Generate(x)` (R162). -/
def generate (x : List Byte) : GuardTuple := x.foldl guardByte ⟨0, 0, 0, 0⟩

/-- `validate(bytes, guards)`: the five fields equal Generate(bytes), both size fields being compared with N (R165). -/
def validate (x : List Byte) (nDec nHex gx gs gr : Nat) : Bool :=
  let t := generate x
  nDec == t.n && nHex == t.n && gx == t.xor && gs == t.sum && gr == t.rot

end Sys2Proof.Machine
end

