-- ==== Sys2Proof/Safety.lean ====
section
/-! DEFINITION. What a safe run is: the invariants of reachable states (10_state R26 and the rules named at each field), the frame of a
command in terms of the host's register map and of OBUF byte by byte, and runs of several steps. -/

namespace Sys2Proof.Machine

open Sys2Proof

/-- n steps, stopping at the first fault or refusal; a run of n commands is n steps (R237). -/
def stepN : Nat → State → Host.Outcome State Fault Refusal
  | 0, s => .next s
  | n + 1, s =>
    match step s with
    | .next s' => stepN n s'
    | .fault r => .fault r
    | .refused r => .refused r

/-- What the spec promises of every state that a run reaches. In such a state no step faults and none is refused. -/
structure Inv (s : State) : Prop where
  /-- The block is an instance (R7). -/
  config : s.cfg.configOk = true
  /-- OBUF_CAP is in range (R5, R20). -/
  capacity : s.cfg.capacityOk = true
  /-- OBUF is in canonical form. -/
  memory : s.obuf.wf
  /-- OBUF holds indices 0 to OBUF_CAP - 1 only (R50). -/
  inside : ∀ cell ∈ s.obuf, cell.1 < s.cfg.obufCap
  /-- Every valid byte has been written (R50). -/
  written : ∀ a : Nat, a < s.olen.toNat → (s.obuf.read a).isSome = true
  /-- R26(a). -/
  encCount : s.stat.state = .enc → s.ebcnt.toNat = s.ecnt.toNat % 4
  /-- The lanes of EBUF below the EBCNT bytes held are zero (R24). -/
  encLanes : s.ebuf.toNat % 2 ^ (32 - 8 * s.ebcnt.toNat) = 0
  /-- R26(b). -/
  decCount : s.stat.state = .dec → s.lcnt.toNat % 5 = s.dcnt.toNat ∧ s.acc.toNat < 85 ^ s.dcnt.toNat
  /-- R26(c). -/
  errEmpty : s.stat.state = .err → s.olen = 0
  /-- R26(d), R169. -/
  xorByte : s.gXor.toNat < 256
  /-- R26(e). -/
  olenBound : s.olen.toNat ≤ s.cfg.obufCap
  /-- ERR holds a code exactly in state ERR (R21, R201, R205). -/
  errRecord : s.stat.state = .err ↔ s.stat.err ≠ .none
  /-- CMDCAUSE holds a cause exactly while CMDERR is 1 (R21, R203). -/
  cmdRecord : s.stat.cmdErr = true ↔ s.stat.cmdCause ≠ .none

/-- The frame of a command: every register the host can read, other than those whose indices are in `regs`, reads as before; the bits of
STAT outside `statMask` are as before; the configuration and the host's side are untouched. -/
structure Frame (regs : List Nat) (statMask : BitVec 32) (s t : State) : Prop where
  regs : ∀ i : BitVec 8, i.toNat ≠ 0 → i.toNat ∉ regs → regRead i t = regRead i s
  stat : t.stat.word &&& ~~~statMask = s.stat.word &&& ~~~statMask
  cfg : t.cfg = s.cfg
  pending : t.pending = s.pending
  reply : t.reply = s.reply
  draws : t.draws = s.draws

/-- Every byte of OBUF reads as before. -/
def KeepsBuf (s t : State) : Prop := ∀ a : Nat, t.obuf.read a = s.obuf.read a

/-- The bytes bs stand at indices a, a + 1, ... of OBUF, and every byte outside them reads as before. -/
structure StoredAt (a : Nat) (bs : List Byte) (s t : State) : Prop where
  stored : ∀ k : Nat, k < bs.length → t.obuf.read (a + k) = bs[k]?
  kept : ∀ x : Nat, (x < a ∨ a + bs.length ≤ x) → t.obuf.read x = s.obuf.read x

/-- The STAT bits of STATE and ERR (R21). -/
def streamBits : BitVec 32 := 0x00000077#32

/-- The STAT bits of STATE (R21). -/
def stateBits : BitVec 32 := 0x00000007#32

/-- The STAT bits of GERR (R21). -/
def gerrBits : BitVec 32 := 0x00000300#32

/-- The STAT bit of GMATCH (R21). -/
def gmatchBit : BitVec 32 := 0x00001000#32

/-- The STAT bits of CMDERR and CMDCAUSE (R21). -/
def cmdBits : BitVec 32 := 0x000F0000#32

/-- A command error: CMDERR = 1, CMDCAUSE = cause, and no other effect (R203). -/
structure Rejected (cause : CmdCause) (s t : State) : Prop where
  flag : t.stat.cmdErr = true
  cause : t.stat.cmdCause = cause
  frame : Frame [] cmdBits s t
  buf : KeepsBuf s t

/-- A stream error: STATE = ERR, ERR = code, OLEN = 0 (R201); `regs` are the other registers the command had written before it. -/
structure Failed (code : StreamErr) (regs : List Nat) (s t : State) : Prop where
  state : t.stat.state = .err
  code : t.stat.err = code
  olen : t.olen = 0
  frame : Frame (2 :: regs) streamBits s t
  buf : KeepsBuf s t

/-- A group result: GERR = code and no other effect (R202). -/
structure GroupResulted (code : GroupErr) (regs : List Nat) (s t : State) : Prop where
  code : t.stat.gerr = code
  frame : Frame regs gerrBits s t
  buf : KeepsBuf s t

/-- A configuration that is an instance of the block: CONFIG_OK (R7), and OBUF_CAP in its range (R5, R20; log entry 7). -/
def IsInstance (c : Config) : Prop := c.configOk = true ∧ c.capacityOk = true

/-- The units of the block a command belongs to (R1, R67). -/
inductive CommandUnit where
  | control | group | stream | guard
  deriving DecidableEq, Repr

/-- The unit of each command: the command families of files 40 to 44 (R72). -/
def unitOf : Instr → CommandUnit
  | .nop => .control
  | .setCtrl _ => .control
  | .clrCmdErr => .control
  | .grpEnc _ => .group
  | .grpDec _ _ _ _ _ => .group
  | .encStart => .stream
  | .encByte _ => .stream
  | .encEnd => .stream
  | .decStart => .stream
  | .decChar _ => .stream
  | .decEnd => .stream
  | .gClear => .guard
  | .gByte _ => .guard
  | .gCmp _ _ => .guard

/-- Two states that a stream operation cannot tell apart: the same configuration, PAD_FINAL, stream registers, STATE, ERR and OBUF (R67). -/
structure StreamAgree (s t : State) : Prop where
  cfg : s.cfg = t.cfg
  padFinal : s.padFinal = t.padFinal
  state : s.stat.state = t.stat.state
  err : s.stat.err = t.stat.err
  olen : s.olen = t.olen
  ebuf : s.ebuf = t.ebuf
  ebcnt : s.ebcnt = t.ebcnt
  ecnt : s.ecnt = t.ecnt
  acc : s.acc = t.acc
  dcnt : s.dcnt = t.dcnt
  lcnt : s.lcnt = t.lcnt
  obuf : s.obuf = t.obuf

end Sys2Proof.Machine
end

