-- ==== Sys2Proof/Certificates/Slice0/Obligations.lean ====
section
/-! DEFINITION. The statements for the provers, from the numbered rules of spec/. -/

open Sys2Proof Sys2Proof.Machine

/-! Encoding -/

/-- R79, R74: the word the encoder makes of any command decodes to that command, with every operand at every value. -/
def Obligations.DecodeOfEncodeIsTheCommand : Prop := ∀ i : Instr, decode (encode i) = .ok i

/-- R74: decoding is strict, so a word that decodes is the one word of its command: no bit of it is dropped. -/
def Obligations.EncodeOfDecodeIsTheWord : Prop :=
  ∀ (cmd : Cmd) (i : Instr), decode cmd = .ok i → encode i = cmd

/-- R74, R72: the decoder accepts exactly the words that match a row of opcode_table.json, less G_CMP with a selector above 3. -/
def Obligations.AcceptedWordsAreTheTableRows : Prop :=
  ∀ cmd : Cmd, (∃ i : Instr, decode cmd = .ok i) ↔ cmdWellFormed cmd = true

/-- R79: the encoded word of each command, by shifts and ors. -/
def Obligations.EncodedWordsAreThoseOfTheSpec : Prop :=
  encode .nop = 0x0000000000000000#64 ∧
  (∀ p : Bool, encode (.setCtrl p) = 0x0000000000000001#64 ||| ((if p then 1#64 else 0#64) <<< 8)) ∧
  encode .clrCmdErr = 0x0000000000000002#64 ∧
  (∀ w : BitVec 32, encode (.grpEnc w) = (w.setWidth 64 <<< 32) ||| 0x10#64) ∧
  (∀ c0 c1 c2 c3 c4 : Byte,
    encode (.grpDec c0 c1 c2 c3 c4) =
      ((c1 ++ c2 ++ c3 ++ c4 : BitVec 32).setWidth 64 <<< 32) ||| (c0.setWidth 64 <<< 8) ||| 0x11#64) ∧
  encode .encStart = 0x20#64 ∧
  (∀ b : Byte, encode (.encByte b) = (b.setWidth 64 <<< 8) ||| 0x21#64) ∧
  encode .encEnd = 0x22#64 ∧
  encode .decStart = 0x30#64 ∧
  (∀ c : Byte, encode (.decChar c) = (c.setWidth 64 <<< 8) ||| 0x31#64) ∧
  encode .decEnd = 0x32#64 ∧
  encode .gClear = 0x40#64 ∧
  (∀ b : Byte, encode (.gByte b) = (b.setWidth 64 <<< 8) ||| 0x41#64) ∧
  (∀ (sel : GuardSel) (w : BitVec 32),
    encode (.gCmp sel w) =
      (w.setWidth 64 <<< 32) |||
        ((match sel with | .n => 0#64 | .xor => 1#64 | .sum => 2#64 | .rot => 3#64 : BitVec 64) <<< 8) ||| 0x42#64)

/-- R74 on words of the spec's own vectors (V-H1, V-C8, V-C9, V-K9, V-C13, P1, P2, V-C7). -/
def Obligations.VectorWordsDecode : Prop :=
  decode 0x6A716F5E00003911#64 = .ok (.grpDec 0x39 0x6A 0x71 0x6F 0x5E) ∧
  decode 0x0000000000000101#64 = .ok (.setCtrl true) ∧
  decode 0x0000000000000201#64 = .error .reservedField ∧
  decode 0x0000014000000242#64 = .ok (.gCmp .sum 0x140) ∧
  decode 0x0000000000000442#64 = .error .badOperand ∧
  decode 0x0000000000004D21#64 = .ok (.encByte 0x4D) ∧
  decode 0x0000000000006A31#64 = .ok (.decChar 0x6A) ∧
  decode 0x0000000000010043#64 = .error .reservedOpcode

/-- R77: assembler lines give the words of the spec's vectors (V-H1, V-K12, V-C8, P1). -/
def Obligations.AssemblerLinesGiveTheVectorWords : Prop :=
  (assemble "GRP_DEC" [.str "9jqo^"]).map encode = some 0x6A716F5E00003911#64 ∧
  (assemble "G_CMP" [.name "ROT", .num 0x4E9]).map encode = some 0x000004E900000342#64 ∧
  (assemble "G_CMP" [.num 3, .num 0x4E9]).map encode = some 0x000004E900000342#64 ∧
  (assemble "SET_CTRL" [.num 1]).map encode = some 0x0000000000000101#64 ∧
  (assemble "ENC_BYTE" [.chr 'M']).map encode = some 0x0000000000004D21#64 ∧
  (assemble "ENC_BYTE" [.num 0x20]).map encode = some 0x0000000000002021#64 ∧
  assemble "SET_CTRL" [.num 2] = none

/-! The step -/

/-- R54, R74, R75: a step on an issued word that decodes is the decoded command's meaning, the word being taken from the port. -/
def Obligations.StepRunsTheDecodedCommand : Prop :=
  ∀ (s : State) (cmd : Cmd) (rest : List HostAction) (i : Instr),
    IsInstance s.cfg → s.pending = .issue cmd :: rest → decode cmd = .ok i →
      step s = exec i { s with pending := rest }

/-- R73, R74, R203: what the step does with every word, by the checks of R74 in their order. The lists are the column OPC of R72
and the commands whose column "uses" names B and W. -/
def Obligations.EveryWordIsCheckedInOrder : Prop :=
  ∀ (s : State) (cmd : Cmd) (rest : List HostAction),
    IsInstance s.cfg → s.pending = .issue cmd :: rest →
      let s0 := { s with pending := rest }
      let opc := cmd.toNat % 2 ^ 8
      let b := cmd.toNat / 2 ^ 8 % 2 ^ 8
      let rsv := cmd.toNat / 2 ^ 16 % 2 ^ 16
      let w := cmd.toNat / 2 ^ 32
      let assigned := [0x00, 0x01, 0x02, 0x10, 0x11, 0x20, 0x21, 0x22, 0x30, 0x31, 0x32, 0x40, 0x41, 0x42]
      let usesB := [0x01, 0x11, 0x21, 0x31, 0x41, 0x42]
      let usesW := [0x10, 0x11, 0x42]
      let fieldBad := rsv ≠ 0 ∨ (opc ∉ usesB ∧ b ≠ 0) ∨ (opc ∉ usesW ∧ w ≠ 0) ∨ (opc = 0x01 ∧ b / 2 ≠ 0)
      let operandBad := opc = 0x42 ∧ 3 < b
      (opc ∉ assigned → ∃ t, step s = .next t ∧ Rejected .reservedOpcode s0 t) ∧
      (opc ∈ assigned → fieldBad → ∃ t, step s = .next t ∧ Rejected .reservedField s0 t) ∧
      (opc ∈ assigned → ¬fieldBad → operandBad → ∃ t, step s = .next t ∧ Rejected .badOperand s0 t) ∧
      (opc ∈ assigned → ¬fieldBad → ¬operandBad →
        ∃ i, decode cmd = .ok i ∧ encode i = cmd ∧ step s = exec i s0)

/-- R215, R54: with no action pending the block holds its state. That there is a step without an action is the model's choice (log
entry 1); by R237 only a command takes a step. -/
def Obligations.IdleBlockHoldsItsState : Prop :=
  ∀ s : State, IsInstance s.cfg → s.pending = [] → step s = .next s

/-- R7: CONFIG_OK is the conjunction of the rule's clauses (a), (b), (d) and (e), clause (c) holding by the type; and a configuration
that is not CONFIG_OK has no step. -/
def Obligations.ConfigNotOkHasNoStep : Prop :=
  (∀ c : Config, c.configOk = true ↔
    (c.alphabet.length = 85 ∧ c.alphabet.Nodup ∧ (c.exc.map ExcEntry.key).Nodup ∧ (c.exc.map ExcEntry.chr).Nodup ∧
      ∀ e ∈ c.exc, e.chr ∉ c.alphabet)) ∧
  ∀ s : State, s.cfg.configOk = false → step s = .refused .configNotOk

/-- R41: the standard alphabet, digit by digit and character by character. -/
def Obligations.StandardAlphabetAndItsCharMap : Prop :=
  Config.standard.alphabet.length = 85 ∧
  (∀ d : Fin 85, Config.standard.alpha d.val = BitVec.ofNat 8 (0x21 + d.val)) ∧
  (∀ c : Byte, Config.standard.charMap c =
    if 0x21 ≤ c.toNat ∧ c.toNat ≤ 0x75 then some (c.toNat - 0x21) else none)

/-- R45: the registers after reset, for every configuration; no byte of OBUF is specified, which the model says by listing none (log
entry 5). State.reset is such a state; which configuration it has is the model's choice (log entry 3). -/
def Obligations.ResetRegisters : Prop :=
  (∀ (c : Config) (i : BitVec 8),
    regRead i (State.resetOf c) = (if i.toNat = 0 then 0x00001000#64 else 0#64) ∧ (State.resetOf c).cfg = c ∧
      ∀ a : Nat, (State.resetOf c).obuf.read a = none) ∧
  ∃ c : Config, State.reset = State.resetOf c

/-- R220: the reset input in any state gives every register its reset value, leaves no byte of OBUF specified (log entry 5) and leaves the
configuration. -/
def Obligations.ResetInputSetsTheResetValues : Prop :=
  ∀ (s : State) (rest : List HostAction), IsInstance s.cfg → s.pending = .reset :: rest →
    ∃ t, step s = .next t ∧ t.pending = rest ∧ t.cfg = s.cfg ∧ (∀ a : Nat, t.obuf.read a = none) ∧
      ∀ i : BitVec 8, regRead i t = if i.toNat = 0 then 0x00001000#64 else 0#64

/-- R52, R20, R23: READ_REG returns the zero-extended register, 0 from index 0x10 on, and changes nothing of the block. The reply is
the model's own field (log entry 9). -/
def Obligations.RegisterReadPort : Prop :=
  ∀ (s : State) (i : BitVec 8) (rest : List HostAction), IsInstance s.cfg → s.pending = .readReg i :: rest →
    ∃ v : BitVec 64, step s = .next { s with pending := rest, reply := some (.reg v) } ∧
      (i = 0x00 → v.toNat = s.stat.word.toNat) ∧ (i = 0x01 → v.toNat = if s.padFinal then 1 else 0) ∧
      (i = 0x02 → v.toNat = s.olen.toNat) ∧ (i = 0x03 → v.toNat = s.ebuf.toNat) ∧
      (i = 0x04 → v.toNat = s.ebcnt.toNat) ∧ (i = 0x05 → v.toNat = s.ecnt.toNat) ∧
      (i = 0x06 → v.toNat = s.acc.toNat) ∧ (i = 0x07 → v.toNat = s.dcnt.toNat) ∧
      (i = 0x08 → v.toNat = s.lcnt.toNat) ∧ (i = 0x09 → v.toNat = s.qchr.toNat) ∧
      (i = 0x0A → v.toNat = s.qdig.toNat) ∧ (i = 0x0B → v.toNat = s.gw.toNat) ∧
      (i = 0x0C → v.toNat = s.gN.toNat) ∧ (i = 0x0D → v.toNat = s.gXor.toNat) ∧
      (i = 0x0E → v.toNat = s.gSum.toNat) ∧ (i = 0x0F → v.toNat = s.gRot.toNat) ∧
      (0x10 ≤ i.toNat → v = 0)

/-- R53: READ_BUF returns the byte below OLEN, some byte from OLEN on, and changes nothing of the block. The reply and the count of
draws are the model's own fields (log entries 6 and 9); which byte is drawn is not stated. -/
def Obligations.BufferReadPort : Prop :=
  ∀ (s : State) (i : BitVec 32) (rest : List HostAction), IsInstance s.cfg → s.pending = .readBuf i :: rest →
    (∀ v : Byte, i.toNat < s.olen.toNat → i.toNat < s.cfg.obufCap → s.obuf.read i.toNat = some v →
      step s = .next { s with pending := rest, reply := some (.buf v) }) ∧
    (s.olen.toNat ≤ i.toNat →
      ∃ v : Byte, step s = .next { s with pending := rest, reply := some (.buf v), draws := s.draws + 1 })

/-- R50, and the model's choice of log entry 13: a read below OLEN of an index that OBUF does not have stops. No state with the
invariant has such an index. -/
def Obligations.BufferIndexObufLacksFaults : Prop :=
  ∀ (s : State) (i : BitVec 32) (rest : List HostAction), IsInstance s.cfg → s.pending = .readBuf i :: rest →
    i.toNat < s.olen.toNat → s.cfg.obufCap ≤ i.toNat → step s = .fault (.bufferIndexAbsent i.toNat)

/-- R21: the value of STAT, field by field; every bit outside the fields is 0. -/
def Obligations.StatWordLayout : Prop :=
  ∀ t : Stat, t.word.toNat =
    (match t.state with | .idle => 0 | .enc => 1 | .dec => 2 | .done => 3 | .err => 4) +
    2 ^ 4 * (match t.err with
      | .none => 0 | .unrecognizedChar => 1 | .misplacedException => 2 | .overflow => 3 | .limit => 4) +
    2 ^ 8 * (match t.gerr with | .ok => 0 | .unrecognizedChar => 1 | .overflow => 2) +
    2 ^ 12 * (if t.gmatch then 1 else 0) + 2 ^ 16 * (if t.cmdErr then 1 else 0) +
    2 ^ 17 * (match t.cmdCause with
      | .none => 0 | .reservedOpcode => 1 | .reservedField => 2 | .badOperand => 3 | .wrongState => 4 | .limit => 5)

/-! The control commands -/

/-- R180. -/
def Obligations.NopChangesNothing : Prop := ∀ s : State, exec .nop s = .next s

/-- R181, R75: SET_CTRL writes PAD_FINAL and nothing else in IDLE, DONE and ERR, and is rejected in ENC and DEC. -/
def Obligations.SetCtrlWritesPadFinal : Prop :=
  ∀ (pad : Bool) (s : State),
    (s.stat.state = .enc ∨ s.stat.state = .dec →
      ∃ t, exec (.setCtrl pad) s = .next t ∧ Rejected .wrongState s t) ∧
    (s.stat.state = .idle ∨ s.stat.state = .done ∨ s.stat.state = .err →
      ∃ t, exec (.setCtrl pad) s = .next t ∧ t.padFinal = pad ∧ Frame [1] 0 s t ∧ KeepsBuf s t)

/-- R182. -/
def Obligations.ClrCmdErrClearsTheCommandError : Prop :=
  ∀ s : State, ∃ t, exec .clrCmdErr s = .next t ∧ t.stat.cmdErr = false ∧ t.stat.cmdCause = .none ∧
    Frame [] cmdBits s t ∧ KeepsBuf s t

/-! The group codec -/

/-- R100: the five digits of a group, their bounds, and their value. -/
def Obligations.GroupDigits : Prop :=
  ∀ (c : Config) (g : Group),
    encDigits g = [g.toNat / 52200625 % 85, g.toNat / 614125 % 85, g.toNat / 7225 % 85, g.toNat / 85 % 85, g.toNat % 85] ∧
    encGroup c g = (encDigits g).map c.alpha ∧ digit g 0 ≤ 82 ∧
    digit g 0 * 52200625 + digit g 1 * 614125 + digit g 2 * 7225 + digit g 3 * 85 + digit g 4 = g.toNat

/-- R103: a completed quintet overflows exactly above 2^32 - 1, and otherwise gives its four bytes, most significant first. -/
def Obligations.QuintetOverflowsAboveTheLargestGroup : Prop :=
  ∀ v : Nat, v ≤ 4437053124 →
    (4294967295 < v → decGroup v = none) ∧
    (v ≤ 4294967295 → ∃ g, decGroup v = some g ∧
      be4 g = [BitVec.ofNat 8 (v / 256 ^ 3), BitVec.ofNat 8 (v / 256 ^ 2), BitVec.ofNat 8 (v / 256), BitVec.ofNat 8 v])

/-- R101, R25: GRP_ENC leaves digit i in bits [34-7i : 28-7i] of QDIG and its character in bits [39-8i : 32-8i] of QCHR. -/
def Obligations.GrpEncLeavesDigitsAndCharacters : Prop :=
  ∀ (w : Group) (s : State), ∃ t, exec (.grpEnc w) s = .next t ∧ GroupResulted .ok [0x09, 0x0A] s t ∧
    ∀ i : Fin 5,
      t.qdig.toNat / 2 ^ (7 * (4 - i.val)) % 2 ^ 7 = w.toNat / 85 ^ (4 - i.val) % 85 ∧
      t.qchr.toNat / 2 ^ (8 * (4 - i.val)) % 2 ^ 8 = (s.cfg.alpha (w.toNat / 85 ^ (4 - i.val) % 85)).toNat

/-- R104, R102: GRP_DEC reports a character that is no digit, else an overflow, else leaves the value in GW. -/
def Obligations.GrpDecDecodesOrReports : Prop :=
  ∀ (c0 c1 c2 c3 c4 : Byte) (s : State),
    ((∃ c ∈ [c0, c1, c2, c3, c4], s.cfg.charMap c = none) →
      ∃ t, exec (.grpDec c0 c1 c2 c3 c4) s = .next t ∧ GroupResulted .unrecognizedChar [] s t) ∧
    (∀ d0 d1 d2 d3 d4 v : Nat,
      s.cfg.charMap c0 = some d0 → s.cfg.charMap c1 = some d1 → s.cfg.charMap c2 = some d2 →
      s.cfg.charMap c3 = some d3 → s.cfg.charMap c4 = some d4 →
      v = d0 * 52200625 + d1 * 614125 + d2 * 7225 + d3 * 85 + d4 →
        (4294967295 < v →
          ∃ t, exec (.grpDec c0 c1 c2 c3 c4) s = .next t ∧ GroupResulted .overflow [] s t) ∧
        (v ≤ 4294967295 →
          ∃ t, exec (.grpDec c0 c1 c2 c3 c4) s = .next t ∧ t.gw.toNat = v ∧ GroupResulted .ok [0x0B] s t))

/-- R105: the value of the digits of v decodes to v, and GRP_ENC v followed by GRP_DEC of the five characters of QCHR leaves GW = v
with GERR = OK. -/
def Obligations.GroupRoundTrip : Prop :=
  ∀ (v : Group) (s : State), s.cfg.configOk = true →
    decGroup ((encDigits v).foldl fold 0) = some v ∧
    ∃ t u, exec (.grpEnc v) s = .next t ∧
      exec (.grpDec (t.qchr.extractLsb' 32 8) (t.qchr.extractLsb' 24 8) (t.qchr.extractLsb' 16 8)
        (t.qchr.extractLsb' 8 8) (t.qchr.extractLsb' 0 8)) t = .next u ∧
      u.gw = v ∧ u.stat.gerr = .ok

/-! The stream encoder -/

/-- R121: ENC_START in any state. -/
def Obligations.EncStartBeginsAnEncode : Prop :=
  ∀ s : State, ∃ t, exec .encStart s = .next t ∧ t.stat.state = .enc ∧ t.stat.err = .none ∧ t.olen = 0 ∧
    t.ebuf = 0 ∧ t.ebcnt = 0 ∧ t.ecnt = 0 ∧ Frame [0x02, 0x03, 0x04, 0x05] streamBits s t ∧ KeepsBuf s t

/-- R123: a group with an exception character is written as it, and any other as its five digits. -/
def Obligations.GroupCharactersExceptionFirst : Prop :=
  ∀ (c : Config) (g : Group),
    (∀ ch : Byte, c.excChr g = some ch → groupChars c g = [ch]) ∧
    (c.excChr g = none → groupChars c g =
      [c.alpha (g.toNat / 85 ^ 4 % 85), c.alpha (g.toNat / 85 ^ 3 % 85), c.alpha (g.toNat / 85 ^ 2 % 85),
        c.alpha (g.toNat / 85 % 85), c.alpha (g.toNat % 85)])

/-- R122, R124, R75: ENC_BYTE in every state: the state check, the count limit, the first three bytes of a group, and the fourth, whose
characters go to OBUF at OLEN where they fit. -/
def Obligations.EncByteTakesOneByte : Prop :=
  ∀ (b : Byte) (s : State), s.cfg.capacityOk = true →
    let k := s.ebcnt.toNat
    let chars := groupChars s.cfg (s.ebuf ||| b.setWidth 32)
    (s.stat.state ≠ .enc → s.stat.state ≠ .err →
      ∃ t, exec (.encByte b) s = .next t ∧ Rejected .wrongState s t) ∧
    (s.stat.state = .err → exec (.encByte b) s = .next s) ∧
    (s.stat.state = .enc → s.ecnt.toNat = 4294967295 →
      ∃ t, exec (.encByte b) s = .next t ∧ Failed .limit [] s t) ∧
    (s.stat.state = .enc → s.ecnt.toNat < 4294967295 → k < 3 →
      ∃ t, exec (.encByte b) s = .next t ∧ t.ecnt.toNat = s.ecnt.toNat + 1 ∧ t.ebcnt.toNat = k + 1 ∧
        t.ebuf = s.ebuf ||| (b.setWidth 32 <<< (24 - 8 * k)) ∧ Frame [0x03, 0x04, 0x05] 0 s t ∧ KeepsBuf s t) ∧
    (s.stat.state = .enc → s.ecnt.toNat < 4294967295 → k = 3 → s.cfg.obufCap < s.olen.toNat + chars.length →
      ∃ t, exec (.encByte b) s = .next t ∧ t.ecnt.toNat = s.ecnt.toNat + 1 ∧ Failed .limit [0x05] s t) ∧
    (s.stat.state = .enc → s.ecnt.toNat < 4294967295 → k = 3 → s.olen.toNat + chars.length ≤ s.cfg.obufCap →
      ∃ t, exec (.encByte b) s = .next t ∧ t.ecnt.toNat = s.ecnt.toNat + 1 ∧ t.ebcnt = 0 ∧ t.ebuf = 0 ∧
        t.olen.toNat = s.olen.toNat + chars.length ∧ StoredAt s.olen.toNat chars s t ∧
        Frame [0x02, 0x03, 0x04, 0x05] 0 s t)

/-- R126, R124, R75: ENC_END in every state: the state check, a whole group, and a partial group, whose characters go to OBUF where they
fit and of which p are then removed unless PAD_FINAL is 1. -/
def Obligations.EncEndPadsAndTruncates : Prop :=
  ∀ s : State, s.cfg.capacityOk = true →
    let p := (4 - s.ebcnt.toNat) % 4
    let chars := groupChars s.cfg s.ebuf
    (s.stat.state ≠ .enc → s.stat.state ≠ .err → ∃ t, exec .encEnd s = .next t ∧ Rejected .wrongState s t) ∧
    (s.stat.state = .err → exec .encEnd s = .next s) ∧
    (s.stat.state = .enc → p = 0 →
      ∃ t, exec .encEnd s = .next t ∧ t.stat.state = .done ∧ Frame [] stateBits s t ∧ KeepsBuf s t) ∧
    (s.stat.state = .enc → p ≠ 0 → s.cfg.obufCap < s.olen.toNat + chars.length →
      ∃ t, exec .encEnd s = .next t ∧ Failed .limit [] s t) ∧
    (s.stat.state = .enc → p ≠ 0 → s.olen.toNat + chars.length ≤ s.cfg.obufCap →
      ∃ t, exec .encEnd s = .next t ∧ t.stat.state = .done ∧ t.ebuf = 0 ∧ t.ebcnt = 0 ∧
        t.olen.toNat = s.olen.toNat + chars.length - (if s.padFinal then 0 else p) ∧
        StoredAt s.olen.toNat chars s t ∧ Frame [0x02, 0x03, 0x04] stateBits s t)

/-! The stream decoder -/

/-- R141: DEC_START in any state. -/
def Obligations.DecStartBeginsADecode : Prop :=
  ∀ s : State, ∃ t, exec .decStart s = .next t ∧ t.stat.state = .dec ∧ t.stat.err = .none ∧ t.olen = 0 ∧
    t.acc = 0 ∧ t.dcnt = 0 ∧ t.lcnt = 0 ∧ Frame [0x02, 0x06, 0x07, 0x08] streamBits s t ∧ KeepsBuf s t

/-- R142, R75: DEC_CHAR outside DEC, and a character in neither ALPHABET nor EXC. -/
def Obligations.DecCharStateCheckAndUnknownCharacter : Prop :=
  ∀ (c : Byte) (s : State),
    (s.stat.state ≠ .dec → s.stat.state ≠ .err →
      ∃ t, exec (.decChar c) s = .next t ∧ Rejected .wrongState s t) ∧
    (s.stat.state = .err → exec (.decChar c) s = .next s) ∧
    (s.stat.state = .dec → s.cfg.charMap c = none → s.cfg.excKey c = none →
      ∃ t, exec (.decChar c) s = .next t ∧ Failed .unrecognizedChar [] s t)

/-- R142, R143, R144: DEC_CHAR of a digit d in DEC. The accumulator and the digit count are written back in their widths (R10). -/
def Obligations.DecCharFoldsADigit : Prop :=
  ∀ (c : Byte) (d : Nat) (s : State), s.cfg.capacityOk = true → s.stat.state = .dec → s.cfg.charMap c = some d →
    let v := s.acc.toNat * 85 + d
    let j := s.dcnt.toNat + 1
    let bytes := [BitVec.ofNat 8 (v / 2 ^ 24), BitVec.ofNat 8 (v / 2 ^ 16), BitVec.ofNat 8 (v / 2 ^ 8), BitVec.ofNat 8 v]
    (s.lcnt.toNat = 4294967295 → ∃ t, exec (.decChar c) s = .next t ∧ Failed .limit [] s t) ∧
    (s.lcnt.toNat < 4294967295 → j ≠ 5 →
      ∃ t, exec (.decChar c) s = .next t ∧ t.lcnt.toNat = s.lcnt.toNat + 1 ∧ t.acc.toNat = v % 2 ^ 33 ∧
        t.dcnt.toNat = j % 2 ^ 3 ∧ Frame [0x06, 0x07, 0x08] 0 s t ∧ KeepsBuf s t) ∧
    (s.lcnt.toNat < 4294967295 → j = 5 → 4294967295 < v →
      ∃ t, exec (.decChar c) s = .next t ∧ t.lcnt.toNat = s.lcnt.toNat + 1 ∧ Failed .overflow [0x08] s t) ∧
    (s.lcnt.toNat < 4294967295 → j = 5 → v ≤ 4294967295 → s.cfg.obufCap < s.olen.toNat + 4 →
      ∃ t, exec (.decChar c) s = .next t ∧ t.lcnt.toNat = s.lcnt.toNat + 1 ∧ Failed .limit [0x08] s t) ∧
    (s.lcnt.toNat < 4294967295 → j = 5 → v ≤ 4294967295 → s.olen.toNat + 4 ≤ s.cfg.obufCap →
      ∃ t, exec (.decChar c) s = .next t ∧ t.lcnt.toNat = s.lcnt.toNat + 1 ∧ t.acc = 0 ∧ t.dcnt = 0 ∧
        t.olen.toNat = s.olen.toNat + 4 ∧ StoredAt s.olen.toNat bytes s t ∧ Frame [0x02, 0x06, 0x07, 0x08] 0 s t)

/-- R142, R143: DEC_CHAR of the exception character of group g in DEC. -/
def Obligations.DecCharExpandsAnException : Prop :=
  ∀ (c : Byte) (g : Group) (s : State), s.cfg.capacityOk = true → s.stat.state = .dec →
    s.cfg.charMap c = none → s.cfg.excKey c = some g →
    let bytes := [BitVec.ofNat 8 (g.toNat / 2 ^ 24), BitVec.ofNat 8 (g.toNat / 2 ^ 16), BitVec.ofNat 8 (g.toNat / 2 ^ 8),
      BitVec.ofNat 8 g.toNat]
    (s.dcnt.toNat ≠ 0 → ∃ t, exec (.decChar c) s = .next t ∧ Failed .misplacedException [] s t) ∧
    (s.dcnt.toNat = 0 → 4294967295 < s.lcnt.toNat + 5 →
      ∃ t, exec (.decChar c) s = .next t ∧ Failed .limit [] s t) ∧
    (s.dcnt.toNat = 0 → s.lcnt.toNat + 5 ≤ 4294967295 → s.cfg.obufCap < s.olen.toNat + 4 →
      ∃ t, exec (.decChar c) s = .next t ∧ Failed .limit [] s t) ∧
    (s.dcnt.toNat = 0 → s.lcnt.toNat + 5 ≤ 4294967295 → s.olen.toNat + 4 ≤ s.cfg.obufCap →
      ∃ t, exec (.decChar c) s = .next t ∧ t.lcnt.toNat = s.lcnt.toNat + 5 ∧ t.olen.toNat = s.olen.toNat + 4 ∧
        StoredAt s.olen.toNat bytes s t ∧ Frame [0x02, 0x08] 0 s t)

/-- R145, R143, R75: DEC_END in every state: the state check, a whole number of quintets, and a partial quintet completed by p digits
84, whose bytes go to OBUF where they fit and of which p are then removed unless PAD_FINAL is 1. -/
def Obligations.DecEndCompletesTheQuintet : Prop :=
  ∀ s : State, s.cfg.capacityOk = true →
    let r := s.lcnt.toNat % 5
    let p := 5 - r
    let v := s.acc.toNat * 85 ^ p + (85 ^ p - 1)
    let bytes := [BitVec.ofNat 8 (v / 2 ^ 24), BitVec.ofNat 8 (v / 2 ^ 16), BitVec.ofNat 8 (v / 2 ^ 8), BitVec.ofNat 8 v]
    (s.stat.state ≠ .dec → s.stat.state ≠ .err → ∃ t, exec .decEnd s = .next t ∧ Rejected .wrongState s t) ∧
    (s.stat.state = .err → exec .decEnd s = .next s) ∧
    (s.stat.state = .dec → r = 0 →
      ∃ t, exec .decEnd s = .next t ∧ t.stat.state = .done ∧ Frame [] stateBits s t ∧ KeepsBuf s t) ∧
    (s.stat.state = .dec → r ≠ 0 → 4294967295 < v → ∃ t, exec .decEnd s = .next t ∧ Failed .overflow [] s t) ∧
    (s.stat.state = .dec → r ≠ 0 → v ≤ 4294967295 → s.cfg.obufCap < s.olen.toNat + 4 →
      ∃ t, exec .decEnd s = .next t ∧ Failed .limit [] s t) ∧
    (s.stat.state = .dec → r ≠ 0 → v ≤ 4294967295 → s.olen.toNat + 4 ≤ s.cfg.obufCap →
      ∃ t, exec .decEnd s = .next t ∧ t.stat.state = .done ∧ t.acc = 0 ∧ t.dcnt = 0 ∧
        t.olen.toNat = s.olen.toNat + 4 - (if s.padFinal then 0 else p) ∧
        StoredAt s.olen.toNat bytes s t ∧ Frame [0x02, 0x06, 0x07] stateBits s t)

/-! The guard checksum -/

/-- R160. -/
def Obligations.GClearStartsANewGuard : Prop :=
  ∀ s : State, ∃ t, exec .gClear s = .next t ∧ t.gN = 0 ∧ t.gXor = 0 ∧ t.gSum = 0 ∧ t.gRot = 0 ∧ t.stat.gmatch = true ∧
    Frame [0x0C, 0x0D, 0x0E, 0x0F] gmatchBit s t ∧ KeepsBuf s t

/-- R161, R163: G_BYTE counts the byte and updates the three checksums from their old values, or is rejected at MAXCNT. -/
def Obligations.GByteAccumulates : Prop :=
  ∀ (b : Byte) (s : State),
    (s.gN.toNat = 4294967295 → ∃ t, exec (.gByte b) s = .next t ∧ Rejected .limit s t) ∧
    (s.gN.toNat < 4294967295 →
      ∃ t, exec (.gByte b) s = .next t ∧ t.gN.toNat = s.gN.toNat + 1 ∧ t.gXor.toNat = s.gXor.toNat ^^^ b.toNat ∧
        t.gSum.toNat = (s.gSum.toNat + b.toNat + 1) % 2 ^ 32 ∧
        t.gRot.toNat = (s.gRot.toNat * 2 % 2 ^ 32 + s.gRot.toNat / 2 ^ 31 + b.toNat) % 2 ^ 32 ∧
        Frame [0x0C, 0x0D, 0x0E, 0x0F] 0 s t ∧ KeepsBuf s t)

/-- R164: G_CMP changes nothing on a match, and clears GMATCH and nothing else on a mismatch. -/
def Obligations.GCmpClearsGmatchOnAMismatch : Prop :=
  ∀ (sel : GuardSel) (w : BitVec 32) (s : State),
    let v := match sel with | .n => s.gN | .xor => s.gXor | .sum => s.gSum | .rot => s.gRot
    (v = w → exec (.gCmp sel w) s = .next s) ∧
    (v ≠ w → ∃ t, exec (.gCmp sel w) s = .next t ∧ t.stat.gmatch = false ∧ Frame [] gmatchBit s t ∧ KeepsBuf s t)

/-! The whole machine -/

/-- R26, R24, R21, R169: the invariant holds after reset, whatever the configuration. -/
def Obligations.ResetHasTheInvariant : Prop :=
  Inv State.reset ∧ ∀ c : Config, IsInstance c → Inv (State.resetOf c)

/-- R26, R24, R21, R169: every step keeps the invariant, for every pending action and every configuration. -/
def Obligations.StepKeepsTheInvariant : Prop := ∀ s t : State, Inv s → step s = .next t → Inv t

/-- R205, R74: a block in a state with the invariant has no stop: every step answers a next state. -/
def Obligations.StepNeverStops : Prop := ∀ s : State, Inv s → ∃ t, step s = .next t

/-- R210, R235: no step changes the configuration. -/
def Obligations.ConfigurationNeverChanges : Prop := ∀ s t : State, step s = .next t → t.cfg = s.cfg

/-- R67: each command writes only the registers of its own unit, or is rejected and writes only CMDERR and CMDCAUSE. -/
def Obligations.UnitsWriteOnlyTheirRegisters : Prop :=
  ∀ (i : Instr) (s t : State), exec i s = .next t →
    (unitOf i = .group → Frame [0x09, 0x0A, 0x0B] gerrBits s t ∧ KeepsBuf s t) ∧
    (unitOf i = .guard →
      (Frame [0x0C, 0x0D, 0x0E, 0x0F] gmatchBit s t ∧ KeepsBuf s t) ∨ ∃ c, Rejected c s t) ∧
    (unitOf i = .stream →
      Frame [0x02, 0x03, 0x04, 0x05, 0x06, 0x07, 0x08] streamBits s t ∨ ∃ c, Rejected c s t) ∧
    (unitOf i = .control → (Frame [0x01] cmdBits s t ∧ KeepsBuf s t))

/-- R67: group and guard commands leave everything a stream operation reads, and a stream command does the same to two states that
agree on it; so the host may interleave them. -/
def Obligations.InterleavingDoesNotDisturbAStream : Prop :=
  (∀ (i : Instr) (s t : State), unitOf i = .group ∨ unitOf i = .guard → exec i s = .next t → StreamAgree s t) ∧
  (∀ (i : Instr) (s1 s2 : State), unitOf i = .stream → StreamAgree s1 s2 →
    ∃ t1 t2, exec i s1 = .next t1 ∧ exec i s2 = .next t2 ∧ StreamAgree t1 t2)

/-- R203: CMDERR is sticky until CLR_CMDERR or reset. -/
def Obligations.CmdErrIsSticky : Prop :=
  ∀ s t : State, s.stat.cmdErr = true → step s = .next t →
    s.pending.head? ≠ some .reset → s.pending.head? ≠ some (.issue 0x0000000000000002#64) → t.stat.cmdErr = true

/-- R205: a stream error is left only by ENC_START, DEC_START or reset; until then its record and the empty buffer stay. -/
def Obligations.StreamErrorIsLeftOnlyByAStartOrReset : Prop :=
  ∀ s t : State, s.stat.state = .err → step s = .next t →
    s.pending.head? ≠ some .reset → s.pending.head? ≠ some (.issue 0x0000000000000020#64) →
    s.pending.head? ≠ some (.issue 0x0000000000000030#64) →
      t.stat.state = .err ∧ t.stat.err = s.stat.err ∧ t.olen = s.olen

/-- R236, R181: PAD_FINAL is constant through a stream operation. -/
def Obligations.PadFinalIsConstantInAStream : Prop :=
  ∀ s t : State, s.stat.state = .enc ∨ s.stat.state = .dec → step s = .next t →
    s.pending.head? ≠ some .reset → t.padFinal = s.padFinal

/-- R164: once GMATCH is 0, only G_CLEAR or reset makes it 1 again. -/
def Obligations.OnlyGClearRestoresGmatch : Prop :=
  ∀ s t : State, s.stat.gmatch = false → step s = .next t →
    s.pending.head? ≠ some .reset → s.pending.head? ≠ some (.issue 0x0000000000000040#64) → t.stat.gmatch = false

/-! Whole inputs -/

/-- R24: after ENC_START and at most three bytes, EBUF holds them left-aligned, big-endian, with zeros below. -/
def Obligations.EbufHoldsThePartialGroup : Prop :=
  ∀ (bs : List Byte) (s : State) (rest : List HostAction), IsInstance s.cfg → bs.length ≤ 3 →
    s.pending = issueAll (.encStart :: bs.map .encByte) ++ rest →
      ∃ t, stepN (bs.length + 1) s = .next t ∧ t.pending = rest ∧ t.ebcnt.toNat = bs.length ∧
        (∀ (i : Nat) (b : Byte), bs[i]? = some b → t.ebuf.toNat / 2 ^ (24 - 8 * i) % 2 ^ 8 = b.toNat) ∧
        t.ebuf.toNat % 2 ^ (32 - 8 * bs.length) = 0

/-- R125, R124: the run of ENCODE x ends in DONE with OBUF[0 : OLEN] = Encode(x, PAD_FINAL) where the bytes can be counted and the
characters fit, and otherwise in ERR with LIMIT and no output. -/
def Obligations.EncodeRunComputesEncode : Prop :=
  ∀ (x : List Byte) (s : State) (rest : List HostAction), IsInstance s.cfg →
    s.pending = issueAll (Pseudo.encode x).expand ++ rest →
      ∃ t, stepN (x.length + 2) s = .next t ∧ t.pending = rest ∧
        (x.length ≤ 4294967295 ∧ (encodeUntruncated s.cfg x).length ≤ s.cfg.obufCap →
          t.stat.state = .done ∧ t.stat.err = .none ∧ output t = (encodeAll s.cfg x s.padFinal).map some) ∧
        (¬(x.length ≤ 4294967295 ∧ (encodeUntruncated s.cfg x).length ≤ s.cfg.obufCap) →
          t.stat.state = .err ∧ t.stat.err = .limit ∧ t.olen = 0)

/-- R146, R143: a run of DECODE s that raises no LIMIT ends as Decode(s, PAD_FINAL) says, with its bytes or with its failure; and a short
enough input raises no LIMIT. -/
def Obligations.DecodeRunComputesDecode : Prop :=
  ∀ (chs : List Byte) (s : State) (rest : List HostAction), IsInstance s.cfg →
    s.pending = issueAll (Pseudo.decode chs).expand ++ rest →
      ∃ t, stepN (chs.length + 2) s = .next t ∧ t.pending = rest ∧
        (t.stat.err ≠ .limit →
          (∀ bytes, decodeAll s.cfg chs s.padFinal = .ok bytes →
            t.stat.state = .done ∧ t.stat.err = .none ∧ output t = bytes.map some) ∧
          (∀ code, decodeAll s.cfg chs s.padFinal = .error code →
            t.stat.state = .err ∧ t.stat.err = code ∧ t.olen = 0)) ∧
        (5 * chs.length ≤ 4294967295 → 4 * chs.length ≤ s.cfg.obufCap → t.stat.err ≠ .limit)

/-- R147: decoding inverts encoding where the input is whole groups or its zero-padded final group has no exception key; with PAD_FINAL = 1
on both sides the padding stays. -/
def Obligations.DecodeInvertsEncode : Prop :=
  ∀ (c : Config) (x : List Byte), c.configOk = true →
    (x.length % 4 = 0 ∨ ∀ g : Group, (groupsOf (zeroPadded x)).getLast? = some g → c.excChr g = none) →
      decodeAll c (encodeAll c x false) false = .ok x ∧
      decodeAll c (encodeAll c x true) true = .ok (x ++ List.replicate ((4 - x.length % 4) % 4) 0)

/-- R127: where the zero-padded final group has an exception key and PAD_FINAL is 0, its low 8p bits are zero and the output is that of
the full groups less its last p - 1 characters. -/
def Obligations.FinalGroupExceptionLosesData : Prop :=
  ∀ (c : Config) (x : List Byte) (g : Group) (ch : Byte),
    let p := (4 - x.length % 4) % 4
    let full := encodeUntruncated c (x.take (x.length / 4 * 4))
    0 < p → (groupsOf (zeroPadded x)).getLast? = some g → c.excChr g = some ch →
      g.toNat % 2 ^ (8 * p) = 0 ∧ encodeAll c x false = full.take (full.length - (p - 1))

/-- R128: the output length, where the zero-padded final group has no exception key; e of the full groups have one. -/
def Obligations.EncodedLength : Prop :=
  ∀ (c : Config) (x : List Byte),
    let q := x.length / 4
    let r := x.length % 4
    let e := ((groupsOf x).filter fun g => (c.excChr g).isSome).length
    (r ≠ 0 → ∀ g : Group, (groupsOf (zeroPadded x)).getLast? = some g → c.excChr g = none) →
      (encodeAll c x false).length + 4 * e = 5 * q + (if r = 0 then 0 else r + 1) ∧
      (encodeAll c x true).length + 4 * e = 5 * (q + (if r = 0 then 0 else 1))

/-- R129: ENCODE of the empty input ends in DONE with OLEN = 0. -/
def Obligations.EmptyEncodeIsEmpty : Prop :=
  ∀ (s : State) (rest : List HostAction), IsInstance s.cfg → s.pending = issueAll (Pseudo.encode []).expand ++ rest →
    ∃ t, stepN 2 s = .next t ∧ t.pending = rest ∧ t.stat.state = .done ∧ t.olen = 0

/-- R148: with an exception entry for the zero group, four zero bytes encode to its character, and that character decodes to four zero
bytes with LCNT = 5. -/
def Obligations.ZeroGroupExceptionRoundTrip : Prop :=
  ∀ (z : Byte) (s : State) (rest : List HostAction), IsInstance s.cfg → s.cfg.excChr 0 = some z →
    s.pending = issueAll ((Pseudo.encode [0, 0, 0, 0]).expand ++ (Pseudo.decode [z]).expand) ++ rest →
      ∃ t u, stepN 6 s = .next t ∧ output t = [some z] ∧
        stepN 3 t = .next u ∧ output u = [some 0, some 0, some 0, some 0] ∧ u.lcnt.toNat = 5 ∧ u.pending = rest

/-- R145: one leftover digit adds nothing where it is at most 81, and overflows from 82 on. -/
def Obligations.OneLeftoverDigit : Prop :=
  ∀ (c : Config) (ch : Byte) (d : Nat), c.charMap ch = some d →
    (d ≤ 81 → decodeAll c [ch] false = .ok []) ∧ (82 ≤ d → decodeAll c [ch] false = .error .overflow)

/-- R162, R161, R160: the run of GUARD x leaves Generate(x) in the guard registers and GMATCH = 1. -/
def Obligations.GuardRunComputesGenerate : Prop :=
  ∀ (x : List Byte) (s : State) (rest : List HostAction), IsInstance s.cfg → x.length ≤ 4294967295 →
    s.pending = issueAll (Pseudo.guard x).expand ++ rest →
      ∃ t, stepN (x.length + 1) s = .next t ∧ t.pending = rest ∧ t.stat.gmatch = true ∧
        generate x = ⟨t.gN.toNat, t.gXor.toNat, t.gSum.toNat, t.gRot.toNat⟩

/-- R165: GUARD x then VALIDATE answers in GMATCH whether all five fields equal Generate(x). -/
def Obligations.ValidateRunAnswersInGmatch : Prop :=
  ∀ (x : List Byte) (nDec nHex gx gs gr : BitVec 32) (s : State) (rest : List HostAction),
    IsInstance s.cfg → x.length ≤ 4294967295 →
    s.pending = issueAll ((Pseudo.guard x).expand ++ (Pseudo.validate nDec nHex gx gs gr).expand) ++ rest →
      ∃ t, stepN (x.length + 6) s = .next t ∧ t.pending = rest ∧
        (t.stat.gmatch = true ↔
          (nDec.toNat = (generate x).n ∧ nHex.toNat = (generate x).n ∧ gx.toNat = (generate x).xor ∧
            gs.toNat = (generate x).sum ∧ gr.toNat = (generate x).rot))

/-- R167: the guard of x validates x, and no sequence that differs from x in one byte. -/
def Obligations.OneByteChangeIsDetected : Prop :=
  ∀ x : List Byte,
    let g := generate x
    validate x g.n g.n g.xor g.sum g.rot = true ∧
    ∀ (k : Nat) (old new : Byte), x[k]? = some old → new ≠ old →
      (generate (x.set k new)).xor = g.xor ^^^ (old.toNat ^^^ new.toNat) ∧
      validate (x.set k new) g.n g.n g.xor g.sum g.rot = false

/-- R169: the XOR checksum stays below 256, the sum checksum is the count plus the bytes modulo 2^32, neither depends on the order of the
bytes, and the rotate checksum does. -/
def Obligations.GuardChecksumLaws : Prop :=
  (∀ x : List Byte, (generate x).n = x.length ∧ (generate x).xor < 256 ∧
    (generate x).sum = (x.length + (x.map BitVec.toNat).sum) % 2 ^ 32) ∧
  (∀ x y : List Byte, x.Perm y → (generate x).xor = (generate y).xor ∧ (generate x).sum = (generate y).sum) ∧
  (∃ x y : List Byte, x.Perm y ∧ (generate x).rot ≠ (generate y).rot)
end

