-- ==== Sys2Proof/Laws/Decode.lean ====
section
/-! SUPPORT. The fields of a command word built from its fields, and what the checks shared by all commands let through. -/

namespace Sys2Proof

/-- The value of a word built from its fields (R70). -/
theorem cmd64_toNat (w : BitVec 32) (b : Byte) (opc : BitVec 8) :
    (cmd64 w b opc).toNat = w.toNat * 2 ^ 32 + b.toNat * 2 ^ 8 + opc.toNat := by
  have hb := b.isLt
  have ho := opc.isLt
  simp only [cmd64, BitVec.toNat_append, BitVec.toNat_ofNat]
  rw [show (0 : Nat) % 2 ^ 16 = 0 from rfl, Nat.or_zero,
    ← Nat.shiftLeft_add_eq_or_of_lt hb, ← Nat.shiftLeft_add_eq_or_of_lt ho]
  simp only [Nat.shiftLeft_eq]
  omega

theorem cmdOpc_toNat (cmd : Cmd) : (cmdOpc cmd).toNat = cmd.toNat % 2 ^ 8 := by
  simp [cmdOpc, BitVec.extractLsb'_toNat]

theorem cmdB_toNat (cmd : Cmd) : (cmdB cmd).toNat = cmd.toNat / 2 ^ 8 % 2 ^ 8 := by
  simp [cmdB, BitVec.extractLsb'_toNat, Nat.shiftRight_eq_div_pow]

theorem cmdRsv_toNat (cmd : Cmd) : (cmdRsv cmd).toNat = cmd.toNat / 2 ^ 16 % 2 ^ 16 := by
  simp [cmdRsv, BitVec.extractLsb'_toNat, Nat.shiftRight_eq_div_pow]

theorem cmdW_toNat (cmd : Cmd) : (cmdW cmd).toNat = cmd.toNat / 2 ^ 32 := by
  have := cmd.isLt
  simp only [cmdW, BitVec.extractLsb'_toNat, Nat.shiftRight_eq_div_pow]
  omega

@[simp] theorem cmdOpc_cmd64 (w : BitVec 32) (b : Byte) (opc : BitVec 8) : cmdOpc (cmd64 w b opc) = opc := by
  apply BitVec.eq_of_toNat_eq
  have := opc.isLt
  rw [cmdOpc_toNat, cmd64_toNat]
  omega

@[simp] theorem cmdB_cmd64 (w : BitVec 32) (b : Byte) (opc : BitVec 8) : cmdB (cmd64 w b opc) = b := by
  apply BitVec.eq_of_toNat_eq
  have := opc.isLt
  have := b.isLt
  rw [cmdB_toNat, cmd64_toNat]
  omega

@[simp] theorem cmdRsv_cmd64 (w : BitVec 32) (b : Byte) (opc : BitVec 8) : cmdRsv (cmd64 w b opc) = 0 := by
  apply BitVec.eq_of_toNat_eq
  have := opc.isLt
  have := b.isLt
  rw [cmdRsv_toNat, cmd64_toNat]
  simp only [BitVec.ofNat_eq_ofNat, BitVec.toNat_ofNat]
  omega

@[simp] theorem cmdW_cmd64 (w : BitVec 32) (b : Byte) (opc : BitVec 8) : cmdW (cmd64 w b opc) = w := by
  apply BitVec.eq_of_toNat_eq
  have := opc.isLt
  have := b.isLt
  rw [cmdW_toNat, cmd64_toNat]
  omega

/-- What `readFields` accepts, it accepts from a word whose reserved and unused fields are 0 (R74). -/
theorem readFields_ok {cmd : Cmd} {usesB usesW : Bool} {build : Byte → BitVec 32 → Except CmdCause Instr} {i : Instr}
    (h : readFields cmd usesB usesW build = .ok i) :
    cmdRsv cmd = 0 ∧ (usesB = false → cmdB cmd = 0) ∧ (usesW = false → cmdW cmd = 0) ∧
      build (cmdB cmd) (cmdW cmd) = .ok i := by
  unfold readFields at h
  split at h
  · cases h
  · split at h
    · cases h
    · split at h
      · cases h
      · refine ⟨by simp_all, ?_, ?_, h⟩ <;> intro hu <;> simp_all

/-- A word built from fields of which the unused ones are 0 passes the shared checks. -/
theorem readFields_cmd64 {w : BitVec 32} {b : Byte} {opc : BitVec 8} {usesB usesW : Bool}
    {build : Byte → BitVec 32 → Except CmdCause Instr} (hb : usesB = false → b = 0) (hw : usesW = false → w = 0) :
    readFields (cmd64 w b opc) usesB usesW build = build b w := by
  cases usesB <;> cases usesW <;> simp_all [readFields]

/-- Two words with the same four fields are one word. -/
theorem cmd_eq_cmd64 (cmd : Cmd) (h : cmdRsv cmd = 0) : cmd = cmd64 (cmdW cmd) (cmdB cmd) (cmdOpc cmd) := by
  apply BitVec.eq_of_toNat_eq
  have h' := congrArg BitVec.toNat h
  rw [cmdRsv_toNat] at h'
  simp only [BitVec.ofNat_eq_ofNat, BitVec.toNat_ofNat] at h'
  have := cmd.isLt
  rw [cmd64_toNat, cmdW_toNat, cmdB_toNat, cmdOpc_toNat]
  omega

/-- A mask takes a built word apart field by field. -/
theorem cmd64_and (w : BitVec 32) (b : Byte) (opc : BitVec 8) (mw : BitVec 32) (mr : BitVec 16) (mb : Byte) (mo : BitVec 8) :
    cmd64 w b opc &&& (mw ++ mr ++ mb ++ mo : BitVec 64) = cmd64 (w &&& mw) (b &&& mb) (opc &&& mo) := by
  have h0 : (0#16 &&& mr) = 0#16 := by simp
  simp only [cmd64]
  rw [BitVec.and_append, BitVec.and_append, BitVec.and_append, h0]

end Sys2Proof
end

