-- ==== Sys2Proof/Laws/Flags.lean ====
section
/-! SUPPORT. What an update of one field of STAT leaves of the STAT word (R21, R27), and the frames that follow. -/

namespace Sys2Proof.Machine

open Sys2Proof

/-- A mask given segment by segment takes the STAT word apart field by field (R21). -/
theorem word_and (t : Stat) (m0 : BitVec 12) (m1 : BitVec 3) (m2 : BitVec 1) (m3 : BitVec 3) (m4 : BitVec 1) (m5 : BitVec 2)
    (m6 : BitVec 2) (m7 : BitVec 1) (m8 : BitVec 3) (m9 : BitVec 1) (m10 : BitVec 3) :
    t.word &&& (m0 ++ m1 ++ m2 ++ m3 ++ m4 ++ m5 ++ m6 ++ m7 ++ m8 ++ m9 ++ m10 : BitVec 32) =
      (0#12 &&& m0) ++ (t.cmdCause.code &&& m1) ++ (BitVec.ofBool t.cmdErr &&& m2) ++ (0#3 &&& m3) ++
        (BitVec.ofBool t.gmatch &&& m4) ++ (0#2 &&& m5) ++ (t.gerr.code &&& m6) ++ (0#1 &&& m7) ++
        (t.err.code &&& m8) ++ (0#1 &&& m9) ++ (t.state.code &&& m10) := by
  unfold Stat.word
  rw [BitVec.and_append, BitVec.and_append, BitVec.and_append, BitVec.and_append, BitVec.and_append, BitVec.and_append,
    BitVec.and_append, BitVec.and_append, BitVec.and_append, BitVec.and_append]

theorem word_keeps_state (t : Stat) (st : StreamState) :
    ({ t with state := st } : Stat).word &&& ~~~stateBits = t.word &&& ~~~stateBits := by
  have h : ~~~stateBits =
      0xFFF#12 ++ 7#3 ++ 1#1 ++ 7#3 ++ 1#1 ++ 3#2 ++ 3#2 ++ 1#1 ++ 7#3 ++ 1#1 ++ 0#3 := by decide
  rw [h, word_and, word_and, BitVec.and_zero, BitVec.and_zero]

theorem word_keeps_stream (t : Stat) (st : StreamState) (er : StreamErr) :
    ({ t with err := er, state := st } : Stat).word &&& ~~~streamBits = t.word &&& ~~~streamBits := by
  have h : ~~~streamBits =
      0xFFF#12 ++ 7#3 ++ 1#1 ++ 7#3 ++ 1#1 ++ 3#2 ++ 3#2 ++ 1#1 ++ 0#3 ++ 1#1 ++ 0#3 := by decide
  rw [h, word_and, word_and]
  simp only [BitVec.and_zero]

theorem word_keeps_gerr (t : Stat) (e : GroupErr) :
    ({ t with gerr := e } : Stat).word &&& ~~~gerrBits = t.word &&& ~~~gerrBits := by
  have h : ~~~gerrBits =
      0xFFF#12 ++ 7#3 ++ 1#1 ++ 7#3 ++ 1#1 ++ 3#2 ++ 0#2 ++ 1#1 ++ 7#3 ++ 1#1 ++ 7#3 := by decide
  rw [h, word_and, word_and]
  simp only [BitVec.and_zero]

theorem word_keeps_gmatch (t : Stat) (b : Bool) :
    ({ t with gmatch := b } : Stat).word &&& ~~~gmatchBit = t.word &&& ~~~gmatchBit := by
  have h : ~~~gmatchBit =
      0xFFF#12 ++ 7#3 ++ 1#1 ++ 7#3 ++ 0#1 ++ 3#2 ++ 3#2 ++ 1#1 ++ 7#3 ++ 1#1 ++ 7#3 := by decide
  rw [h, word_and, word_and]
  simp only [BitVec.and_zero]

theorem word_keeps_cmd (t : Stat) (b : Bool) (c : CmdCause) :
    ({ t with cmdErr := b, cmdCause := c } : Stat).word &&& ~~~cmdBits = t.word &&& ~~~cmdBits := by
  have h : ~~~cmdBits =
      0xFFF#12 ++ 0#3 ++ 0#1 ++ 7#3 ++ 1#1 ++ 3#2 ++ 3#2 ++ 1#1 ++ 7#3 ++ 1#1 ++ 7#3 := by decide
  rw [h, word_and, word_and]
  simp only [BitVec.and_zero]

/-- A command that leaves every register field but those at the indices `regs` leaves what the host reads at every other index. -/
theorem regs_kept {regs : List Nat} {s t : State}
    (h1 : 1 ∉ regs → t.padFinal = s.padFinal) (h2 : 2 ∉ regs → t.olen = s.olen) (h3 : 3 ∉ regs → t.ebuf = s.ebuf) (h4 : 4
    ∉ regs → t.ebcnt = s.ebcnt) (h5 : 5 ∉ regs → t.ecnt = s.ecnt) (h6 : 6 ∉ regs → t.acc = s.acc) (h7 : 7 ∉ regs →
    t.dcnt = s.dcnt) (h8 : 8 ∉ regs → t.lcnt = s.lcnt) (h9 : 9 ∉ regs → t.qchr = s.qchr) (h10 : 10 ∉ regs → t.qdig =
    s.qdig) (h11 : 11 ∉ regs → t.gw = s.gw) (h12 : 12 ∉ regs → t.gN = s.gN) (h13 : 13 ∉ regs → t.gXor = s.gXor) (h14 :
    14 ∉ regs → t.gSum = s.gSum) (h15 : 15 ∉ regs → t.gRot = s.gRot) :
    ∀ i : BitVec 8, i.toNat ≠ 0 → i.toNat ∉ regs → regRead i t = regRead i s := by
  intro i h0 hi
  unfold regRead
  split <;> rename_i hx
  · exact absurd hx h0
  · rw [h1 (hx ▸ hi)]
  · rw [h2 (hx ▸ hi)]
  · rw [h3 (hx ▸ hi)]
  · rw [h4 (hx ▸ hi)]
  · rw [h5 (hx ▸ hi)]
  · rw [h6 (hx ▸ hi)]
  · rw [h7 (hx ▸ hi)]
  · rw [h8 (hx ▸ hi)]
  · rw [h9 (hx ▸ hi)]
  · rw [h10 (hx ▸ hi)]
  · rw [h11 (hx ▸ hi)]
  · rw [h12 (hx ▸ hi)]
  · rw [h13 (hx ▸ hi)]
  · rw [h14 (hx ▸ hi)]
  · rw [h15 (hx ▸ hi)]
  · rfl

/-- An update of STAT leaves every other register of the host's map (R20, R52). -/
theorem regRead_of_stat {s : State} {st : Stat} {i : BitVec 8} (h0 : i.toNat ≠ 0) :
    regRead i { s with stat := st } = regRead i s := by
  unfold regRead
  split
  · exact absurd ‹_› h0
  all_goals rfl

/-- `cmdError` is a rejection (R203). -/
theorem cmdError_rejected (c : CmdCause) (s : State) : Rejected c s (cmdError c s) where
  flag := rfl
  cause := rfl
  frame :=
    { regs := fun _ h0 _ => regRead_of_stat h0
      stat := word_keeps_cmd s.stat true c
      cfg := rfl
      pending := rfl
      reply := rfl
      draws := rfl }
  buf := fun _ => rfl

end Sys2Proof.Machine
end

