-- ==== Sys2Proof/Laws/Operands.lean ====
section
/-! SUPPORT. The packed forms as numbers: a group and its bytes (R56, R57), the digits and characters of a group (R25). -/

namespace Sys2Proof.Machine

open Sys2Proof

/-- A concatenation as a number, the left part more significant (R9). -/
theorem append_toNat {m n : Nat} (x : BitVec m) (y : BitVec n) : (x ++ y).toNat = x.toNat * 2 ^ n + y.toNat := by
  rw [BitVec.toNat_append, ← Nat.shiftLeft_add_eq_or_of_lt y.isLt, Nat.shiftLeft_eq]

/-- A field of a value as a number (R9). -/
theorem field_toNat {n : Nat} (v : BitVec n) (lo len : Nat) : (v.extractLsb' lo len).toNat = v.toNat / 2 ^ lo % 2 ^ len := by
  rw [BitVec.extractLsb'_toNat, Nat.shiftRight_eq_div_pow]

/-- The value of four bytes is big-endian (R56). -/
theorem beGroup_toNat (b0 b1 b2 b3 : Byte) :
    (beGroup b0 b1 b2 b3).toNat = b0.toNat * 2 ^ 24 + b1.toNat * 2 ^ 16 + b2.toNat * 2 ^ 8 + b3.toNat := by
  simp only [beGroup, append_toNat]
  omega

/-- The four bytes of a group formed from four bytes are those bytes (R56, R57). -/
theorem be4_beGroup (b0 b1 b2 b3 : Byte) : be4 (beGroup b0 b1 b2 b3) = [b0, b1, b2, b3] := by
  have h0 := b0.isLt
  have h1 := b1.isLt
  have h2 := b2.isLt
  have h3 := b3.isLt
  simp only [be4, List.cons.injEq, and_true]
  refine ⟨?_, ?_, ?_, ?_⟩ <;> apply BitVec.eq_of_toNat_eq <;> rw [field_toNat, beGroup_toNat] <;> omega

/-- A group is formed from its own four bytes (R56, R57). -/
theorem beGroup_of_bytes (g : Group) :
    beGroup (g.extractLsb' 24 8) (g.extractLsb' 16 8) (g.extractLsb' 8 8) (g.extractLsb' 0 8) = g := by
  have hg := g.isLt
  apply BitVec.eq_of_toNat_eq
  simp only [beGroup_toNat, field_toNat]
  omega

/-- QDIG as a number (R25). -/
theorem packDigits_toNat (g : Group) :
    (packDigits g).toNat =
      digit g 0 * 2 ^ 28 + digit g 1 * 2 ^ 21 + digit g 2 * 2 ^ 14 + digit g 3 * 2 ^ 7 + digit g 4 := by
  have h : ∀ i, digit g i % 2 ^ 7 = digit g i := fun i =>
    Nat.mod_eq_of_lt (Nat.lt_trans (Nat.mod_lt _ (by decide)) (by decide))
  simp only [packDigits, append_toNat, BitVec.toNat_ofNat, h]
  omega

/-- QCHR as a number (R25). -/
theorem packChars_toNat (c : Config) (g : Group) :
    (packChars c g).toNat =
      (c.alpha (digit g 0)).toNat * 2 ^ 32 + (c.alpha (digit g 1)).toNat * 2 ^ 24 + (c.alpha (digit g 2)).toNat * 2 ^ 16 +
        (c.alpha (digit g 3)).toNat * 2 ^ 8 + (c.alpha (digit g 4)).toNat := by
  simp only [packChars, append_toNat]
  omega

end Sys2Proof.Machine
end

