-- ==== Sys2Proof/Laws/State.lean ====
section
/-! SUPPORT. The fields of State after each named operation of Machine/Ops.lean: one lemma for each field and operation. -/

namespace Sys2Proof.Machine

open Sys2Proof

variable (s : State)

@[simp] theorem append_cfg (bs : List Byte) : (append bs s).cfg = s.cfg := rfl
@[simp] theorem append_stat (bs : List Byte) : (append bs s).stat = s.stat := rfl
@[simp] theorem append_padFinal (bs : List Byte) : (append bs s).padFinal = s.padFinal := rfl
@[simp] theorem append_olen (bs : List Byte) : (append bs s).olen = BitVec.ofNat 32 (s.olen.toNat + bs.length) := rfl
@[simp] theorem append_ebuf (bs : List Byte) : (append bs s).ebuf = s.ebuf := rfl
@[simp] theorem append_ebcnt (bs : List Byte) : (append bs s).ebcnt = s.ebcnt := rfl
@[simp] theorem append_ecnt (bs : List Byte) : (append bs s).ecnt = s.ecnt := rfl
@[simp] theorem append_acc (bs : List Byte) : (append bs s).acc = s.acc := rfl
@[simp] theorem append_dcnt (bs : List Byte) : (append bs s).dcnt = s.dcnt := rfl
@[simp] theorem append_lcnt (bs : List Byte) : (append bs s).lcnt = s.lcnt := rfl
@[simp] theorem append_qchr (bs : List Byte) : (append bs s).qchr = s.qchr := rfl
@[simp] theorem append_qdig (bs : List Byte) : (append bs s).qdig = s.qdig := rfl
@[simp] theorem append_gw (bs : List Byte) : (append bs s).gw = s.gw := rfl
@[simp] theorem append_gN (bs : List Byte) : (append bs s).gN = s.gN := rfl
@[simp] theorem append_gXor (bs : List Byte) : (append bs s).gXor = s.gXor := rfl
@[simp] theorem append_gSum (bs : List Byte) : (append bs s).gSum = s.gSum := rfl
@[simp] theorem append_gRot (bs : List Byte) : (append bs s).gRot = s.gRot := rfl
@[simp] theorem append_obuf (bs : List Byte) : (append bs s).obuf = s.obuf.store s.olen.toNat bs := rfl
@[simp] theorem append_pending (bs : List Byte) : (append bs s).pending = s.pending := rfl
@[simp] theorem append_reply (bs : List Byte) : (append bs s).reply = s.reply := rfl
@[simp] theorem append_draws (bs : List Byte) : (append bs s).draws = s.draws := rfl

@[simp] theorem truncate_cfg (p : Nat) : (truncate p s).cfg = s.cfg := rfl
@[simp] theorem truncate_stat (p : Nat) : (truncate p s).stat = s.stat := rfl
@[simp] theorem truncate_padFinal (p : Nat) : (truncate p s).padFinal = s.padFinal := rfl
@[simp] theorem truncate_olen (p : Nat) : (truncate p s).olen = BitVec.ofNat 32 (s.olen.toNat - p) := rfl
@[simp] theorem truncate_ebuf (p : Nat) : (truncate p s).ebuf = s.ebuf := rfl
@[simp] theorem truncate_ebcnt (p : Nat) : (truncate p s).ebcnt = s.ebcnt := rfl
@[simp] theorem truncate_ecnt (p : Nat) : (truncate p s).ecnt = s.ecnt := rfl
@[simp] theorem truncate_acc (p : Nat) : (truncate p s).acc = s.acc := rfl
@[simp] theorem truncate_dcnt (p : Nat) : (truncate p s).dcnt = s.dcnt := rfl
@[simp] theorem truncate_lcnt (p : Nat) : (truncate p s).lcnt = s.lcnt := rfl
@[simp] theorem truncate_qchr (p : Nat) : (truncate p s).qchr = s.qchr := rfl
@[simp] theorem truncate_qdig (p : Nat) : (truncate p s).qdig = s.qdig := rfl
@[simp] theorem truncate_gw (p : Nat) : (truncate p s).gw = s.gw := rfl
@[simp] theorem truncate_gN (p : Nat) : (truncate p s).gN = s.gN := rfl
@[simp] theorem truncate_gXor (p : Nat) : (truncate p s).gXor = s.gXor := rfl
@[simp] theorem truncate_gSum (p : Nat) : (truncate p s).gSum = s.gSum := rfl
@[simp] theorem truncate_gRot (p : Nat) : (truncate p s).gRot = s.gRot := rfl
@[simp] theorem truncate_obuf (p : Nat) : (truncate p s).obuf = s.obuf := rfl
@[simp] theorem truncate_pending (p : Nat) : (truncate p s).pending = s.pending := rfl
@[simp] theorem truncate_reply (p : Nat) : (truncate p s).reply = s.reply := rfl
@[simp] theorem truncate_draws (p : Nat) : (truncate p s).draws = s.draws := rfl

@[simp] theorem clear_cfg : (clear s).cfg = s.cfg := rfl
@[simp] theorem clear_stat : (clear s).stat = s.stat := rfl
@[simp] theorem clear_padFinal : (clear s).padFinal = s.padFinal := rfl
@[simp] theorem clear_olen : (clear s).olen = 0 := rfl
@[simp] theorem clear_ebuf : (clear s).ebuf = s.ebuf := rfl
@[simp] theorem clear_ebcnt : (clear s).ebcnt = s.ebcnt := rfl
@[simp] theorem clear_ecnt : (clear s).ecnt = s.ecnt := rfl
@[simp] theorem clear_acc : (clear s).acc = s.acc := rfl
@[simp] theorem clear_dcnt : (clear s).dcnt = s.dcnt := rfl
@[simp] theorem clear_lcnt : (clear s).lcnt = s.lcnt := rfl
@[simp] theorem clear_qchr : (clear s).qchr = s.qchr := rfl
@[simp] theorem clear_qdig : (clear s).qdig = s.qdig := rfl
@[simp] theorem clear_gw : (clear s).gw = s.gw := rfl
@[simp] theorem clear_gN : (clear s).gN = s.gN := rfl
@[simp] theorem clear_gXor : (clear s).gXor = s.gXor := rfl
@[simp] theorem clear_gSum : (clear s).gSum = s.gSum := rfl
@[simp] theorem clear_gRot : (clear s).gRot = s.gRot := rfl
@[simp] theorem clear_obuf : (clear s).obuf = s.obuf := rfl
@[simp] theorem clear_pending : (clear s).pending = s.pending := rfl
@[simp] theorem clear_reply : (clear s).reply = s.reply := rfl
@[simp] theorem clear_draws : (clear s).draws = s.draws := rfl

@[simp] theorem streamError_cfg (e : StreamErr) : (streamError e s).cfg = s.cfg := rfl
@[simp] theorem streamError_stat (e : StreamErr) : (streamError e s).stat = { s.stat with err := e, state := .err } := rfl
@[simp] theorem streamError_padFinal (e : StreamErr) : (streamError e s).padFinal = s.padFinal := rfl
@[simp] theorem streamError_olen (e : StreamErr) : (streamError e s).olen = 0 := rfl
@[simp] theorem streamError_ebuf (e : StreamErr) : (streamError e s).ebuf = s.ebuf := rfl
@[simp] theorem streamError_ebcnt (e : StreamErr) : (streamError e s).ebcnt = s.ebcnt := rfl
@[simp] theorem streamError_ecnt (e : StreamErr) : (streamError e s).ecnt = s.ecnt := rfl
@[simp] theorem streamError_acc (e : StreamErr) : (streamError e s).acc = s.acc := rfl
@[simp] theorem streamError_dcnt (e : StreamErr) : (streamError e s).dcnt = s.dcnt := rfl
@[simp] theorem streamError_lcnt (e : StreamErr) : (streamError e s).lcnt = s.lcnt := rfl
@[simp] theorem streamError_qchr (e : StreamErr) : (streamError e s).qchr = s.qchr := rfl
@[simp] theorem streamError_qdig (e : StreamErr) : (streamError e s).qdig = s.qdig := rfl
@[simp] theorem streamError_gw (e : StreamErr) : (streamError e s).gw = s.gw := rfl
@[simp] theorem streamError_gN (e : StreamErr) : (streamError e s).gN = s.gN := rfl
@[simp] theorem streamError_gXor (e : StreamErr) : (streamError e s).gXor = s.gXor := rfl
@[simp] theorem streamError_gSum (e : StreamErr) : (streamError e s).gSum = s.gSum := rfl
@[simp] theorem streamError_gRot (e : StreamErr) : (streamError e s).gRot = s.gRot := rfl
@[simp] theorem streamError_obuf (e : StreamErr) : (streamError e s).obuf = s.obuf := rfl
@[simp] theorem streamError_pending (e : StreamErr) : (streamError e s).pending = s.pending := rfl
@[simp] theorem streamError_reply (e : StreamErr) : (streamError e s).reply = s.reply := rfl
@[simp] theorem streamError_draws (e : StreamErr) : (streamError e s).draws = s.draws := rfl

@[simp] theorem beginStream_cfg (st : StreamState) : (beginStream st s).cfg = s.cfg := rfl
@[simp] theorem beginStream_stat (st : StreamState) : (beginStream st s).stat = { s.stat with err := .none, state := st } := rfl
@[simp] theorem beginStream_padFinal (st : StreamState) : (beginStream st s).padFinal = s.padFinal := rfl
@[simp] theorem beginStream_olen (st : StreamState) : (beginStream st s).olen = 0 := rfl
@[simp] theorem beginStream_ebuf (st : StreamState) : (beginStream st s).ebuf = s.ebuf := rfl
@[simp] theorem beginStream_ebcnt (st : StreamState) : (beginStream st s).ebcnt = s.ebcnt := rfl
@[simp] theorem beginStream_ecnt (st : StreamState) : (beginStream st s).ecnt = s.ecnt := rfl
@[simp] theorem beginStream_acc (st : StreamState) : (beginStream st s).acc = s.acc := rfl
@[simp] theorem beginStream_dcnt (st : StreamState) : (beginStream st s).dcnt = s.dcnt := rfl
@[simp] theorem beginStream_lcnt (st : StreamState) : (beginStream st s).lcnt = s.lcnt := rfl
@[simp] theorem beginStream_qchr (st : StreamState) : (beginStream st s).qchr = s.qchr := rfl
@[simp] theorem beginStream_qdig (st : StreamState) : (beginStream st s).qdig = s.qdig := rfl
@[simp] theorem beginStream_gw (st : StreamState) : (beginStream st s).gw = s.gw := rfl
@[simp] theorem beginStream_gN (st : StreamState) : (beginStream st s).gN = s.gN := rfl
@[simp] theorem beginStream_gXor (st : StreamState) : (beginStream st s).gXor = s.gXor := rfl
@[simp] theorem beginStream_gSum (st : StreamState) : (beginStream st s).gSum = s.gSum := rfl
@[simp] theorem beginStream_gRot (st : StreamState) : (beginStream st s).gRot = s.gRot := rfl
@[simp] theorem beginStream_obuf (st : StreamState) : (beginStream st s).obuf = s.obuf := rfl
@[simp] theorem beginStream_pending (st : StreamState) : (beginStream st s).pending = s.pending := rfl
@[simp] theorem beginStream_reply (st : StreamState) : (beginStream st s).reply = s.reply := rfl
@[simp] theorem beginStream_draws (st : StreamState) : (beginStream st s).draws = s.draws := rfl

@[simp] theorem finishStream_cfg : (finishStream s).cfg = s.cfg := rfl
@[simp] theorem finishStream_stat : (finishStream s).stat = { s.stat with state := .done } := rfl
@[simp] theorem finishStream_padFinal : (finishStream s).padFinal = s.padFinal := rfl
@[simp] theorem finishStream_olen : (finishStream s).olen = s.olen := rfl
@[simp] theorem finishStream_ebuf : (finishStream s).ebuf = s.ebuf := rfl
@[simp] theorem finishStream_ebcnt : (finishStream s).ebcnt = s.ebcnt := rfl
@[simp] theorem finishStream_ecnt : (finishStream s).ecnt = s.ecnt := rfl
@[simp] theorem finishStream_acc : (finishStream s).acc = s.acc := rfl
@[simp] theorem finishStream_dcnt : (finishStream s).dcnt = s.dcnt := rfl
@[simp] theorem finishStream_lcnt : (finishStream s).lcnt = s.lcnt := rfl
@[simp] theorem finishStream_qchr : (finishStream s).qchr = s.qchr := rfl
@[simp] theorem finishStream_qdig : (finishStream s).qdig = s.qdig := rfl
@[simp] theorem finishStream_gw : (finishStream s).gw = s.gw := rfl
@[simp] theorem finishStream_gN : (finishStream s).gN = s.gN := rfl
@[simp] theorem finishStream_gXor : (finishStream s).gXor = s.gXor := rfl
@[simp] theorem finishStream_gSum : (finishStream s).gSum = s.gSum := rfl
@[simp] theorem finishStream_gRot : (finishStream s).gRot = s.gRot := rfl
@[simp] theorem finishStream_obuf : (finishStream s).obuf = s.obuf := rfl
@[simp] theorem finishStream_pending : (finishStream s).pending = s.pending := rfl
@[simp] theorem finishStream_reply : (finishStream s).reply = s.reply := rfl
@[simp] theorem finishStream_draws : (finishStream s).draws = s.draws := rfl

@[simp] theorem cmdError_cfg (c : CmdCause) : (cmdError c s).cfg = s.cfg := rfl
@[simp] theorem cmdError_stat (c : CmdCause) : (cmdError c s).stat = { s.stat with cmdErr := true, cmdCause := c } := rfl
@[simp] theorem cmdError_padFinal (c : CmdCause) : (cmdError c s).padFinal = s.padFinal := rfl
@[simp] theorem cmdError_olen (c : CmdCause) : (cmdError c s).olen = s.olen := rfl
@[simp] theorem cmdError_ebuf (c : CmdCause) : (cmdError c s).ebuf = s.ebuf := rfl
@[simp] theorem cmdError_ebcnt (c : CmdCause) : (cmdError c s).ebcnt = s.ebcnt := rfl
@[simp] theorem cmdError_ecnt (c : CmdCause) : (cmdError c s).ecnt = s.ecnt := rfl
@[simp] theorem cmdError_acc (c : CmdCause) : (cmdError c s).acc = s.acc := rfl
@[simp] theorem cmdError_dcnt (c : CmdCause) : (cmdError c s).dcnt = s.dcnt := rfl
@[simp] theorem cmdError_lcnt (c : CmdCause) : (cmdError c s).lcnt = s.lcnt := rfl
@[simp] theorem cmdError_qchr (c : CmdCause) : (cmdError c s).qchr = s.qchr := rfl
@[simp] theorem cmdError_qdig (c : CmdCause) : (cmdError c s).qdig = s.qdig := rfl
@[simp] theorem cmdError_gw (c : CmdCause) : (cmdError c s).gw = s.gw := rfl
@[simp] theorem cmdError_gN (c : CmdCause) : (cmdError c s).gN = s.gN := rfl
@[simp] theorem cmdError_gXor (c : CmdCause) : (cmdError c s).gXor = s.gXor := rfl
@[simp] theorem cmdError_gSum (c : CmdCause) : (cmdError c s).gSum = s.gSum := rfl
@[simp] theorem cmdError_gRot (c : CmdCause) : (cmdError c s).gRot = s.gRot := rfl
@[simp] theorem cmdError_obuf (c : CmdCause) : (cmdError c s).obuf = s.obuf := rfl
@[simp] theorem cmdError_pending (c : CmdCause) : (cmdError c s).pending = s.pending := rfl
@[simp] theorem cmdError_reply (c : CmdCause) : (cmdError c s).reply = s.reply := rfl
@[simp] theorem cmdError_draws (c : CmdCause) : (cmdError c s).draws = s.draws := rfl

@[simp] theorem clearCmdError_cfg : (clearCmdError s).cfg = s.cfg := rfl
@[simp] theorem clearCmdError_stat : (clearCmdError s).stat = { s.stat with cmdErr := false, cmdCause := .none } := rfl
@[simp] theorem clearCmdError_padFinal : (clearCmdError s).padFinal = s.padFinal := rfl
@[simp] theorem clearCmdError_olen : (clearCmdError s).olen = s.olen := rfl
@[simp] theorem clearCmdError_ebuf : (clearCmdError s).ebuf = s.ebuf := rfl
@[simp] theorem clearCmdError_ebcnt : (clearCmdError s).ebcnt = s.ebcnt := rfl
@[simp] theorem clearCmdError_ecnt : (clearCmdError s).ecnt = s.ecnt := rfl
@[simp] theorem clearCmdError_acc : (clearCmdError s).acc = s.acc := rfl
@[simp] theorem clearCmdError_dcnt : (clearCmdError s).dcnt = s.dcnt := rfl
@[simp] theorem clearCmdError_lcnt : (clearCmdError s).lcnt = s.lcnt := rfl
@[simp] theorem clearCmdError_qchr : (clearCmdError s).qchr = s.qchr := rfl
@[simp] theorem clearCmdError_qdig : (clearCmdError s).qdig = s.qdig := rfl
@[simp] theorem clearCmdError_gw : (clearCmdError s).gw = s.gw := rfl
@[simp] theorem clearCmdError_gN : (clearCmdError s).gN = s.gN := rfl
@[simp] theorem clearCmdError_gXor : (clearCmdError s).gXor = s.gXor := rfl
@[simp] theorem clearCmdError_gSum : (clearCmdError s).gSum = s.gSum := rfl
@[simp] theorem clearCmdError_gRot : (clearCmdError s).gRot = s.gRot := rfl
@[simp] theorem clearCmdError_obuf : (clearCmdError s).obuf = s.obuf := rfl
@[simp] theorem clearCmdError_pending : (clearCmdError s).pending = s.pending := rfl
@[simp] theorem clearCmdError_reply : (clearCmdError s).reply = s.reply := rfl
@[simp] theorem clearCmdError_draws : (clearCmdError s).draws = s.draws := rfl

@[simp] theorem groupResult_cfg (e : GroupErr) : (groupResult e s).cfg = s.cfg := rfl
@[simp] theorem groupResult_stat (e : GroupErr) : (groupResult e s).stat = { s.stat with gerr := e } := rfl
@[simp] theorem groupResult_padFinal (e : GroupErr) : (groupResult e s).padFinal = s.padFinal := rfl
@[simp] theorem groupResult_olen (e : GroupErr) : (groupResult e s).olen = s.olen := rfl
@[simp] theorem groupResult_ebuf (e : GroupErr) : (groupResult e s).ebuf = s.ebuf := rfl
@[simp] theorem groupResult_ebcnt (e : GroupErr) : (groupResult e s).ebcnt = s.ebcnt := rfl
@[simp] theorem groupResult_ecnt (e : GroupErr) : (groupResult e s).ecnt = s.ecnt := rfl
@[simp] theorem groupResult_acc (e : GroupErr) : (groupResult e s).acc = s.acc := rfl
@[simp] theorem groupResult_dcnt (e : GroupErr) : (groupResult e s).dcnt = s.dcnt := rfl
@[simp] theorem groupResult_lcnt (e : GroupErr) : (groupResult e s).lcnt = s.lcnt := rfl
@[simp] theorem groupResult_qchr (e : GroupErr) : (groupResult e s).qchr = s.qchr := rfl
@[simp] theorem groupResult_qdig (e : GroupErr) : (groupResult e s).qdig = s.qdig := rfl
@[simp] theorem groupResult_gw (e : GroupErr) : (groupResult e s).gw = s.gw := rfl
@[simp] theorem groupResult_gN (e : GroupErr) : (groupResult e s).gN = s.gN := rfl
@[simp] theorem groupResult_gXor (e : GroupErr) : (groupResult e s).gXor = s.gXor := rfl
@[simp] theorem groupResult_gSum (e : GroupErr) : (groupResult e s).gSum = s.gSum := rfl
@[simp] theorem groupResult_gRot (e : GroupErr) : (groupResult e s).gRot = s.gRot := rfl
@[simp] theorem groupResult_obuf (e : GroupErr) : (groupResult e s).obuf = s.obuf := rfl
@[simp] theorem groupResult_pending (e : GroupErr) : (groupResult e s).pending = s.pending := rfl
@[simp] theorem groupResult_reply (e : GroupErr) : (groupResult e s).reply = s.reply := rfl
@[simp] theorem groupResult_draws (e : GroupErr) : (groupResult e s).draws = s.draws := rfl

@[simp] theorem replyUnspecified_cfg : (replyUnspecified s).cfg = s.cfg := rfl
@[simp] theorem replyUnspecified_stat : (replyUnspecified s).stat = s.stat := rfl
@[simp] theorem replyUnspecified_padFinal : (replyUnspecified s).padFinal = s.padFinal := rfl
@[simp] theorem replyUnspecified_olen : (replyUnspecified s).olen = s.olen := rfl
@[simp] theorem replyUnspecified_ebuf : (replyUnspecified s).ebuf = s.ebuf := rfl
@[simp] theorem replyUnspecified_ebcnt : (replyUnspecified s).ebcnt = s.ebcnt := rfl
@[simp] theorem replyUnspecified_ecnt : (replyUnspecified s).ecnt = s.ecnt := rfl
@[simp] theorem replyUnspecified_acc : (replyUnspecified s).acc = s.acc := rfl
@[simp] theorem replyUnspecified_dcnt : (replyUnspecified s).dcnt = s.dcnt := rfl
@[simp] theorem replyUnspecified_lcnt : (replyUnspecified s).lcnt = s.lcnt := rfl
@[simp] theorem replyUnspecified_qchr : (replyUnspecified s).qchr = s.qchr := rfl
@[simp] theorem replyUnspecified_qdig : (replyUnspecified s).qdig = s.qdig := rfl
@[simp] theorem replyUnspecified_gw : (replyUnspecified s).gw = s.gw := rfl
@[simp] theorem replyUnspecified_gN : (replyUnspecified s).gN = s.gN := rfl
@[simp] theorem replyUnspecified_gXor : (replyUnspecified s).gXor = s.gXor := rfl
@[simp] theorem replyUnspecified_gSum : (replyUnspecified s).gSum = s.gSum := rfl
@[simp] theorem replyUnspecified_gRot : (replyUnspecified s).gRot = s.gRot := rfl
@[simp] theorem replyUnspecified_obuf : (replyUnspecified s).obuf = s.obuf := rfl
@[simp] theorem replyUnspecified_pending : (replyUnspecified s).pending = s.pending := rfl
@[simp] theorem replyUnspecified_reply : (replyUnspecified s).reply = some (.buf (freeByte s.draws)) := rfl
@[simp] theorem replyUnspecified_draws : (replyUnspecified s).draws = s.draws + 1 := rfl

end Sys2Proof.Machine
end

