-- ==== Sys2Proof/Laws/Ops.lean ====
section
/-! SUPPORT. What each shared operation can do: OBUF (read after write, canonical form), the appending and state checks,
the configuration lookups, the reads. -/

namespace Sys2Proof

/-- The executable check of distinctness is the library's. -/
theorem allDistinct_iff_nodup {α : Type} [DecidableEq α] (xs : List α) : allDistinct xs = true ↔ xs.Nodup := by
  induction xs with
  | nil => simp [allDistinct]
  | cons x xs ih =>
    simp only [allDistinct, Bool.and_eq_true, List.all_eq_true, decide_eq_true_eq, List.nodup_cons, ih]
    constructor
    · rintro ⟨h1, h2⟩
      exact ⟨fun hx => h1 x hx rfl, h2⟩
    · rintro ⟨h1, h2⟩
      exact ⟨fun y hy he => h1 (he ▸ hy), h2⟩

/-- A character's digit indexes the alphabet at that character (R12). -/
theorem charMap_some {c : Config} {ch : Byte} {d : Nat} (h : c.charMap ch = some d) :
    d < c.alphabet.length ∧ c.alpha d = ch := by
  simp only [Config.charMap, List.findIdx?_eq_some_iff_getElem] at h
  obtain ⟨hd, heq, -⟩ := h
  refine ⟨hd, ?_⟩
  simp only [beq_iff_eq] at heq
  simp [Config.alpha, List.getD_eq_getElem?_getD, List.getElem?_eq_getElem hd, heq]

/-- In an alphabet without repeats a digit's character maps back to the digit (R12). -/
theorem charMap_alpha {c : Config} (hn : c.alphabet.Nodup) {d : Nat} (hd : d < c.alphabet.length) :
    c.charMap (c.alpha d) = some d := by
  simp only [Config.charMap, List.findIdx?_eq_some_iff_getElem]
  have ha : c.alpha d = c.alphabet[d] := by
    simp [Config.alpha, List.getD_eq_getElem?_getD, List.getElem?_eq_getElem hd]
  refine ⟨hd, by simp [ha], fun j hj => ?_⟩
  simp only [ha, beq_iff_eq]
  intro he
  have := (List.Nodup.getElem_inj_iff hn (hi := by omega) (hj := hd)).1 he
  omega

/-- A character that is no alphabet entry has no digit (R12). -/
theorem charMap_none_iff {c : Config} {ch : Byte} : c.charMap ch = none ↔ ch ∉ c.alphabet := by
  simp only [Config.charMap, List.findIdx?_eq_none_iff]
  constructor
  · intro h hm
    simpa using h ch hm
  · intro h x hx
    simp only [beq_eq_false_iff_ne]
    intro he
    exact h (he ▸ hx)

/-- An exception character comes from an entry of EXC (R12). -/
theorem excChr_some {c : Config} {g : Group} {ch : Byte} (h : c.excChr g = some ch) : (⟨g, ch⟩ : ExcEntry) ∈ c.exc := by
  simp only [Config.excChr, Option.map_eq_some_iff] at h
  obtain ⟨⟨k, v⟩, hf, rfl⟩ := h
  have hk := List.find?_some hf
  simp only [beq_iff_eq] at hk
  exact hk ▸ List.mem_of_find?_eq_some hf

/-- An exception key comes from an entry of EXC (R12). -/
theorem excKey_some {c : Config} {g : Group} {ch : Byte} (h : c.excKey ch = some g) : (⟨g, ch⟩ : ExcEntry) ∈ c.exc := by
  simp only [Config.excKey, Option.map_eq_some_iff] at h
  obtain ⟨⟨k, v⟩, hf, rfl⟩ := h
  have hk := List.find?_some hf
  simp only [beq_iff_eq] at hk
  exact hk ▸ List.mem_of_find?_eq_some hf

namespace Machine

/-! OBUF -/

theorem read_write_same (m : Memory) (a : Nat) (v : Byte) : (m.write a v).read a = some v := by
  induction m with
  | nil => simp [Memory.write, Memory.read]
  | cons cell m ih =>
    obtain ⟨k, w⟩ := cell
    simp only [Memory.write]
    split
    · simp [Memory.read]
    · split
      · simp [Memory.read]
      · rename_i h1 h2
        simp [Memory.read, Ne.symm h2, ih]

theorem read_write_other (m : Memory) {a x : Nat} (v : Byte) (h : x ≠ a) : (m.write a v).read x = m.read x := by
  induction m with
  | nil => simp [Memory.write, Memory.read, Ne.symm h]
  | cons cell m ih =>
    obtain ⟨k, w⟩ := cell
    simp only [Memory.write]
    split
    · simp [Memory.read, Ne.symm h]
    · split
      · rename_i h1 h2
        subst h2
        simp [Memory.read, Ne.symm h]
      · simp [Memory.read, ih]

theorem read_store_outside (m : Memory) (bs : List Byte) {a x : Nat} (h : x < a ∨ a + bs.length ≤ x) :
    (m.store a bs).read x = m.read x := by
  induction bs generalizing m a with
  | nil => rfl
  | cons b bs ih =>
    simp only [List.length_cons] at h
    rw [Memory.store, ih _ (by omega), read_write_other m b (by omega)]

theorem read_store_inside (m : Memory) (bs : List Byte) (a : Nat) {k : Nat} (h : k < bs.length) :
    (m.store a bs).read (a + k) = bs[k]? := by
  induction bs generalizing m a k with
  | nil => simp at h
  | cons b bs ih =>
    cases k with
    | zero => rw [Memory.store, read_store_outside _ _ (by omega)]; simp [read_write_same]
    | succ k =>
      simp only [List.length_cons] at h
      rw [Memory.store, show a + (k + 1) = (a + 1) + k by omega, ih _ _ (by omega)]
      simp

theorem mem_write {m : Memory} {a : Nat} {v : Byte} {cell : Host.Cell} (h : cell ∈ m.write a v) :
    cell = (a, v) ∨ cell ∈ m := by
  induction m with
  | nil => simpa [Memory.write] using h
  | cons d m ih =>
    obtain ⟨k, w⟩ := d
    simp only [Memory.write] at h
    split at h
    · simp only [List.mem_cons] at h ⊢
      exact h
    · split at h
      · simp only [List.mem_cons] at h ⊢
        exact h.imp id Or.inr
      · simp only [List.mem_cons] at h ⊢
        rcases h with h | h
        · exact Or.inr (Or.inl h)
        · exact (ih h).imp id Or.inr

/-- A write keeps the canonical form. -/
theorem write_wf {m : Memory} (hm : m.wf) (a : Nat) (v : Byte) : (m.write a v).wf := by
  induction m with
  | nil => simp [Memory.write, Memory.wf]
  | cons cell m ih =>
    obtain ⟨k, w⟩ := cell
    obtain ⟨h1, h2⟩ := List.pairwise_cons.1 hm
    simp only [Memory.write]
    split
    · rename_i hlt
      refine List.pairwise_cons.2 ⟨fun d hd => ?_, hm⟩
      rcases List.mem_cons.1 hd with rfl | hd
      · exact hlt
      · exact Nat.lt_trans hlt (h1 d hd)
    · split
      · rename_i hk
        subst hk
        exact List.pairwise_cons.2 ⟨h1, h2⟩
      · refine List.pairwise_cons.2 ⟨fun d hd => ?_, ih h2⟩
        rcases mem_write hd with rfl | hd
        · show k < a
          omega
        · exact h1 d hd

/-- Storing bytes keeps the canonical form. -/
theorem store_wf {m : Memory} (hm : m.wf) (a : Nat) (bs : List Byte) : (m.store a bs).wf := by
  induction bs generalizing m a with
  | nil => exact hm
  | cons b bs ih => exact ih (write_wf hm a b) (a + 1)

/-- OBUF is in canonical form after reset, whatever the configuration. -/
theorem resetOf_wf (c : Config) : (State.resetOf c).obuf.wf := List.Pairwise.nil

/-- Storing bytes lists no index outside those listed and those stored to. -/
theorem mem_store {m : Memory} {a : Nat} {bs : List Byte} {cell : Host.Cell} (h : cell ∈ m.store a bs) :
    cell ∈ m ∨ (a ≤ cell.1 ∧ cell.1 < a + bs.length) := by
  induction bs generalizing m a with
  | nil => exact Or.inl h
  | cons b bs ih =>
    simp only [List.length_cons]
    rcases ih h with h | h
    · rcases mem_write h with rfl | h
      · exact Or.inr ⟨Nat.le_refl a, by show a < _; omega⟩
      · exact Or.inl h
    · exact Or.inr (by omega)

theorem reset_memory_wf (c : Config) : (State.resetOf c).obuf.wf := List.Pairwise.nil

/-! The checks -/

/-- All that `appendOrLimit` can do. -/
theorem appendOrLimit_cases (bs : List Byte) (s : State) :
    (s.cfg.obufCap < s.olen.toNat + bs.length ∧ appendOrLimit bs s = .error .limit) ∨
      (s.olen.toNat + bs.length ≤ s.cfg.obufCap ∧ appendOrLimit bs s = .ok (append bs s)) := by
  unfold appendOrLimit
  split
  · exact Or.inl ⟨by omega, rfl⟩
  · exact Or.inr ⟨by omega, rfl⟩

/-- All that the state check of a stream command can do (R75). -/
theorem inStream_cases (want : StreamState) (run : State → State) (s : State) :
    (s.stat.state = want ∧ inStream want run s = run s) ∨
      (s.stat.state ≠ want ∧ s.stat.state = .err ∧ inStream want run s = s) ∨
        (s.stat.state ≠ want ∧ s.stat.state ≠ .err ∧ inStream want run s = cmdError .wrongState s) := by
  unfold inStream
  by_cases h1 : s.stat.state = want
  · exact Or.inl ⟨h1, by simp [h1]⟩
  · by_cases h2 : s.stat.state = .err
    · refine Or.inr (Or.inl ⟨h1, h2, ?_⟩)
      rw [if_neg h1, if_pos h2]
    · refine Or.inr (Or.inr ⟨h1, h2, ?_⟩)
      rw [if_neg h1, if_neg h2]

/-- All that READ_BUF can do (R53). -/
theorem readBuf_cases (i : BitVec 32) (s : State) :
    (∃ v : Byte, readBuf i s = .next { s with reply := some (.buf v) } ∧ i.toNat < s.olen.toNat ∧ s.obuf.read i.toNat = some v) ∨
      readBuf i s = .next (replyUnspecified s) ∨
        (readBuf i s = .fault (.bufferIndexAbsent i.toNat) ∧ i.toNat < s.olen.toNat ∧ s.cfg.obufCap ≤ i.toNat) := by
  unfold readBuf
  split
  · rename_i h1
    split
    · split
      · rename_i v hv
        exact Or.inl ⟨v, rfl, h1, hv⟩
      · exact Or.inr (Or.inl rfl)
    · exact Or.inr (Or.inr ⟨rfl, h1, by omega⟩)
  · exact Or.inr (Or.inl rfl)

/-! Groups and digits -/

/-- A quintet that does not overflow has its own value as its group (R103). -/
theorem decGroup_some {v : Nat} {g : Group} (h : decGroup v = some g) : v ≤ maxGroup ∧ g.toNat = v := by
  unfold decGroup at h
  split at h
  · cases h
  · rename_i hv
    injection h with h
    subst h
    simp only [maxGroup] at hv ⊢
    simp only [BitVec.toNat_ofNat]
    omega

/-- A quintet overflows exactly above 2^32 - 1 (R103, R144). -/
theorem decGroup_none {v : Nat} : decGroup v = none ↔ maxGroup < v := by
  unfold decGroup
  split <;> simp_all

@[simp] theorem be4_length (g : Group) : (be4 g).length = 4 := rfl

@[simp] theorem encGroup_length (c : Config) (g : Group) : (encGroup c g).length = 5 := rfl

/-- Every digit of a group is below 85 (R100). -/
theorem digit_lt (g : Group) (i : Nat) : digit g i < 85 := Nat.mod_lt _ (by decide)

end Machine

end Sys2Proof
end

