-- ==== Sys2Proof/Laws/PerInstr.lean ====
section
/-! SUPPORT. The family TableRow: each command's encoded word is a word of its own row of spec/opcode_table.json (R74, R79). -/

namespace Sys2Proof.Laws.TableRow

open Sys2Proof

/-- The row of the opcode table each constructor stands for. -/
def rowOf : Instr → String
  | .nop => "NOP"
  | .setCtrl _ => "SET_CTRL"
  | .clrCmdErr => "CLR_CMDERR"
  | .grpEnc _ => "GRP_ENC"
  | .grpDec _ _ _ _ _ => "GRP_DEC"
  | .encStart => "ENC_START"
  | .encByte _ => "ENC_BYTE"
  | .encEnd => "ENC_END"
  | .decStart => "DEC_START"
  | .decChar _ => "DEC_CHAR"
  | .decEnd => "DEC_END"
  | .gClear => "G_CLEAR"
  | .gByte _ => "G_BYTE"
  | .gCmp _ _ => "G_CMP"

/-- The encoded word matches the command's own row. -/
def Statement (i : Instr) : Prop := ∃ r ∈ opcodeTable, r.mnemonic = rowOf i ∧ r.accepts (encode i) = true

theorem nop : Statement .nop := ⟨opcodeTable[0], by decide, rfl, by decide⟩

theorem setCtrl (pad : Bool) : Statement (.setCtrl pad) :=
  ⟨opcodeTable[1], by decide, rfl, by cases pad <;> decide⟩

theorem clrCmdErr : Statement .clrCmdErr := ⟨opcodeTable[2], by decide, rfl, by decide⟩

/-- The mask of GRP_ENC covers RSV, B and OPC. -/
theorem grpEnc (w : Group) : Statement (.grpEnc w) := by
  refine ⟨opcodeTable[3], by decide, rfl, ?_⟩
  have h := cmd64_and w 0#8 0x10#8 0#32 0xFFFF#16 0xFF#8 0xFF#8
  simp only [BitVec.and_zero] at h
  exact beq_iff_eq.2 (h.trans (by decide))

/-- The mask of the rows that use B and W covers RSV and OPC. -/
theorem mask_BW (w : BitVec 32) (b : Byte) (opc : BitVec 8) :
    cmd64 w b opc &&& 0x00000000FFFF00FF#64 = cmd64 0 0 (opc &&& 0xFF#8) := by
  have h := cmd64_and w b opc 0#32 0xFFFF#16 0#8 0xFF#8
  simp only [BitVec.and_zero] at h
  exact h

/-- The mask of the rows that use B covers W, RSV and OPC. -/
theorem mask_B (b : Byte) (opc : BitVec 8) :
    cmd64 0 b opc &&& 0xFFFFFFFFFFFF00FF#64 = cmd64 0 0 (opc &&& 0xFF#8) := by
  have h := cmd64_and 0#32 b opc 0xFFFFFFFF#32 0xFFFF#16 0#8 0xFF#8
  simp only [BitVec.and_zero, BitVec.zero_and] at h
  exact h

theorem grpDec (c0 c1 c2 c3 c4 : Byte) : Statement (.grpDec c0 c1 c2 c3 c4) :=
  ⟨opcodeTable[4], by decide, rfl, beq_iff_eq.2 ((mask_BW _ c0 0x11#8).trans (by decide))⟩

theorem encStart : Statement .encStart := ⟨opcodeTable[5], by decide, rfl, by decide⟩

theorem encByte (b : Byte) : Statement (.encByte b) :=
  ⟨opcodeTable[6], by decide, rfl, beq_iff_eq.2 ((mask_B b 0x21#8).trans (by decide))⟩

theorem encEnd : Statement .encEnd := ⟨opcodeTable[7], by decide, rfl, by decide⟩

theorem decStart : Statement .decStart := ⟨opcodeTable[8], by decide, rfl, by decide⟩

theorem decChar (c : Byte) : Statement (.decChar c) :=
  ⟨opcodeTable[9], by decide, rfl, beq_iff_eq.2 ((mask_B c 0x31#8).trans (by decide))⟩

theorem decEnd : Statement .decEnd := ⟨opcodeTable[10], by decide, rfl, by decide⟩

theorem gClear : Statement .gClear := ⟨opcodeTable[11], by decide, rfl, by decide⟩

theorem gByte (b : Byte) : Statement (.gByte b) :=
  ⟨opcodeTable[12], by decide, rfl, beq_iff_eq.2 ((mask_B b 0x41#8).trans (by decide))⟩

theorem gCmp (sel : GuardSel) (w : BitVec 32) : Statement (.gCmp sel w) :=
  ⟨opcodeTable[13], by decide, rfl, beq_iff_eq.2 ((mask_BW w _ 0x42#8).trans (by decide))⟩

end Sys2Proof.Laws.TableRow
end

