-- ==== Sys2Proof/Laws/Step.lean ====
section
/-! SUPPORT. What a step can do, said once. -/

namespace Sys2Proof.Machine

open Sys2Proof

/-- A configuration is refused exactly when one of its two checks fails. -/
theorem configRefusal_none {c : Config} : configRefusal c = none ↔ c.configOk = true ∧ c.capacityOk = true := by
  unfold configRefusal
  cases c.configOk <;> cases c.capacityOk <;> simp

/-- A step that answers a next state is one of an instance of the block: it holds the state, or it takes the oldest action. -/
theorem step_next_cases {s t : State} (h : step s = .next t) :
    (s.cfg.configOk = true ∧ s.cfg.capacityOk = true) ∧
      ((s.pending = [] ∧ t = s) ∨
        ∃ a rest, s.pending = a :: rest ∧ perform a { s with pending := rest } = .next t) := by
  unfold step at h
  split at h
  · cases h
  · rename_i hc
    refine ⟨configRefusal_none.1 hc, ?_⟩
    unfold takeAction at h
    split at h
    · rename_i hp
      injection h with h
      exact Or.inl ⟨hp, h.symm⟩
    · rename_i a rest hp
      exact Or.inr ⟨a, rest, hp, h⟩

/-- On an instance of the block a step takes the oldest action. -/
theorem step_eq_takeAction {s : State} (h1 : s.cfg.configOk = true) (h2 : s.cfg.capacityOk = true) :
    step s = takeAction s := by
  simp [step, configRefusal_none.2 ⟨h1, h2⟩]

/-- All that one action can do when it answers a next state. -/
theorem perform_next_cases {a : HostAction} {s t : State} (h : perform a s = .next t) :
    (∃ cmd c, a = .issue cmd ∧ decode cmd = .error c ∧ t = cmdError c s) ∨
      (∃ cmd i, a = .issue cmd ∧ decode cmd = .ok i ∧ exec i s = .next t) ∨
        (∃ i, a = .readReg i ∧ t = { s with reply := some (.reg (regRead i s)) }) ∨
          (∃ i v, a = .readBuf i ∧ t = { s with reply := some (.buf v) }) ∨
            (∃ i, a = .readBuf i ∧ t = replyUnspecified s) ∨ (a = .reset ∧ t = resetInput s) := by
  cases a with
  | issue cmd =>
    simp only [perform, issue] at h
    split at h
    · rename_i c hd
      injection h with h
      exact Or.inl ⟨cmd, c, rfl, hd, h.symm⟩
    · rename_i i hd
      exact Or.inr (Or.inl ⟨cmd, i, rfl, hd, h⟩)
  | readReg i =>
    simp only [perform, readReg] at h
    injection h with h
    exact Or.inr (Or.inr (Or.inl ⟨i, rfl, h.symm⟩))
  | readBuf i =>
    simp only [perform] at h
    rcases readBuf_cases i s with ⟨v, hr, -⟩ | hr | ⟨hr, -⟩
    · rw [hr] at h
      injection h with h
      exact Or.inr (Or.inr (Or.inr (Or.inl ⟨i, v, rfl, h.symm⟩)))
    · rw [hr] at h
      injection h with h
      exact Or.inr (Or.inr (Or.inr (Or.inr (Or.inl ⟨i, rfl, h.symm⟩))))
    · rw [hr] at h
      cases h
  | reset =>
    simp only [perform] at h
    injection h with h
    exact Or.inr (Or.inr (Or.inr (Or.inr (Or.inr ⟨rfl, h.symm⟩))))

end Sys2Proof.Machine
end

