-- ==== Sys2Proof/Tests/Slice0.lean ====
section
/-! SUPPORT. Tests whose expected values are the spec's own (95_test_vectors, named at each), the refusal of ill-formed terms,
and for each statement a state and operands that meet its hypotheses. -/

namespace Sys2Proof.Tests

open Sys2Proof Sys2Proof.Machine

/-! Ill-formed configurations (R7, R5): each breaks one check and passes the others -/

/-- An alphabet of 84 entries. -/
def shortConfig : Config := { Config.standard with alphabet := standardAlphabet.dropLast }

/-- The entry `!` stands twice, in the place of `u`. -/
def repeatedConfig : Config := { Config.standard with alphabet := standardAlphabet.dropLast ++ [0x21] }

/-- The zero group has two entries. -/
def twoKeysConfig : Config := { Config.standard with exc := [zeroGroupPreset 0x7A, zeroGroupPreset 0x79] }

/-- The character `z` has two entries. -/
def twoChrsConfig : Config := { Config.standard with exc := [zeroGroupPreset 0x7A, spaceGroupPreset 0x7A] }

/-- The exception character is digit 0 of the alphabet. -/
def clashConfig : Config := { Config.standard with exc := [zeroGroupPreset 0x21] }

/-- EXC ZY of the vectors: `z` for the zero group and `y` for the all-space group. -/
def zyConfig : Config := { Config.standard with exc := [zeroGroupPreset 0x7A, spaceGroupPreset 0x79] }

theorem test_standard_length : standardAlphabet.length = 85 := by decide

theorem test_standard_alphabet_distinct : allDistinct standardAlphabet = true := by decide

/-- A configuration over the standard alphabet is an instance where its exceptions and its capacity are in order. -/
theorem isInstance_over_standard {c : Config} (ha : c.alphabet = standardAlphabet)
    (h : (c.keysDistinct && c.chrsDistinct && c.excOutsideAlphabet && c.capacityOk) = true) : IsInstance c := by
  simp only [Bool.and_eq_true] at h
  exact ⟨by simp [Config.configOk, Config.lengthOk, Config.alphabetDistinct, ha, h, test_standard_alphabet_distinct,
    test_standard_length], h.2⟩

theorem test_standard_is_instance : IsInstance Config.standard := isInstance_over_standard rfl (by decide)

theorem test_zy_is_instance : IsInstance zyConfig := isInstance_over_standard rfl (by decide)

theorem test_short_alphabet_refused : shortConfig.lengthOk = false ∧ shortConfig.configOk = false := by decide

theorem test_repeated_entry_refused : repeatedConfig.lengthOk = true ∧ repeatedConfig.configOk = false := by decide

theorem test_repeated_key_refused : twoKeysConfig.keysDistinct = false ∧ twoKeysConfig.configOk = false := by
  have h : twoKeysConfig.keysDistinct = false := by decide
  simp [Config.configOk, h]

theorem test_repeated_exception_character_refused :
    twoChrsConfig.chrsDistinct = false ∧ twoChrsConfig.keysDistinct = true ∧ twoChrsConfig.configOk = false := by
  have h : twoChrsConfig.chrsDistinct = false := by decide
  have k : twoChrsConfig.keysDistinct = true := by decide
  simp [Config.configOk, h, k]

theorem test_exception_in_alphabet_refused :
    clashConfig.excOutsideAlphabet = false ∧ clashConfig.chrsDistinct = true ∧ clashConfig.configOk = false := by
  have h : clashConfig.excOutsideAlphabet = false := by decide
  have k : clashConfig.chrsDistinct = true := by decide
  simp [Config.configOk, h, k]

theorem test_capacity_bounds :
    Config.capacityOk { Config.standard with obufCap := 4 } = false ∧
    Config.capacityOk { Config.standard with obufCap := 5 } = true ∧
    Config.capacityOk { Config.standard with obufCap := 4294967296 } = false := by decide

/-! Ill-formed words: V-C5, V-C4, V-C3, V-C2, V-C9, V-K14 -/

theorem test_ill_formed_words_refused :
    [0x0000000000000003#64, 0x0000000000010000#64, 0x0000000000000100#64, 0x0000000100000000#64, 0x0000000000000201#64,
      0x0000000000000442#64].all (fun w => !cmdWellFormed w) = true := by decide

theorem test_ill_formed_words_decode_to_their_cause :
    decode 0x0000000000000003#64 = .error .reservedOpcode ∧ decode 0x0000000000010000#64 = .error .reservedField ∧
    decode 0x0000000000000100#64 = .error .reservedField ∧ decode 0x0000000100000000#64 = .error .reservedField ∧
    decode 0x0000000000000201#64 = .error .reservedField ∧ decode 0x0000000000000442#64 = .error .badOperand := by decide

/-- V-C7 and V-C12: the order of the checks. -/
theorem test_opcode_before_field :
    decode 0x0000000000010043#64 = .error .reservedOpcode ∧ decode 0x0000000100000021#64 = .error .reservedField := by decide

/-- No word matches two rows of the opcode table. -/
theorem test_opcode_rows_do_not_overlap :
    opcodeTable.Pairwise fun r q => r.pattern &&& (r.mask &&& q.mask) ≠ q.pattern &&& (r.mask &&& q.mask) := by decide

/-! Words written out from R70 to R72, one for each constructor -/

/-- V-C1, V-C8, V-C20. -/
theorem test_decode_control :
    decode 0x0000000000000000#64 = .ok .nop ∧ decode 0x0000000000000101#64 = .ok (.setCtrl true) ∧
    decode 0x0000000000000002#64 = .ok .clrCmdErr := by decide

/-- V-G8's operand in W; V-H14. -/
theorem test_decode_group :
    decode 0x1234567800000010#64 = .ok (.grpEnc 0x12345678) ∧
    decode 0x693C583600002611#64 = .ok (.grpDec 0x26 0x69 0x3C 0x58 0x36) := by decide

/-- P1 steps 1, 2, 8; P2 steps 1, 3, 11. -/
theorem test_decode_stream :
    decode 0x0000000000000020#64 = .ok .encStart ∧ decode 0x0000000000004D21#64 = .ok (.encByte 0x4D) ∧
    decode 0x0000000000000022#64 = .ok .encEnd ∧ decode 0x0000000000000030#64 = .ok .decStart ∧
    decode 0x0000000000006A31#64 = .ok (.decChar 0x6A) ∧ decode 0x0000000000000032#64 = .ok .decEnd := by decide

/-- P1 steps 9, 10; V-K9 and V-K12. -/
theorem test_decode_guard :
    decode 0x0000000000000040#64 = .ok .gClear ∧ decode 0x0000000000004D41#64 = .ok (.gByte 0x4D) ∧
    decode 0x0000000400000042#64 = .ok (.gCmp .n 4) ∧ decode 0x0000006200000142#64 = .ok (.gCmp .xor 0x62) ∧
    decode 0x0000014000000242#64 = .ok (.gCmp .sum 0x140) ∧ decode 0x000004E900000342#64 = .ok (.gCmp .rot 0x4E9) := by decide

theorem test_decode_table_word :
    decodeTableWord 64 0x000004E900000342 = some (.gCmp .rot 0x4E9) ∧ decodeTableWord 8 0x20 = some .encStart ∧
    decodeTableWord 64 0x0000000000000442 = none := by decide

/-! Assembler lines and pseudo-instructions (R77, R78) -/

/-- V-H1, V-C8, V-K14. -/
theorem test_assemble :
    (assemble "GRP_DEC" [.str "9jqo^"]).map encode = some 0x6A716F5E00003911#64 ∧
    assemble "SET_CTRL" [.num 1] = some (.setCtrl true) ∧ assemble "G_CMP" [.num 4, .num 0] = none := by decide

/-- V-K9. -/
theorem test_validate_expansion :
    issueAll (Pseudo.validate 4 4 0x62 0x140 0x4E8).expand =
      [.issue 0x0000000400000042#64, .issue 0x0000000400000042#64, .issue 0x0000006200000142#64,
        .issue 0x0000014000000242#64, .issue 0x000004E800000342#64] := by decide

/-! One step on a small state -/

/-- The state a step answers, where it answers one. -/
def after (o : Host.Outcome State Fault Refusal) : Option State :=
  match o with
  | .next t => some t
  | .fault _ => none
  | .refused _ => none

/-- One field of the state after a command. -/
def fieldAfter {α : Type} (i : Instr) (s : State) (f : State → α) : Option α := (after (exec i s)).map f

/-- A block right after ENC_START, with k bytes `buf` held, n counted and `out` characters in OBUF. -/
def encoding (c : Config) (buf : BitVec 32) (k : BitVec 2) (n out : BitVec 32) : State :=
  { State.resetOf c with
    stat := { (State.resetOf c).stat with state := .enc }, ebuf := buf, ebcnt := k, ecnt := n, olen := out }

/-- A block right after DEC_START, with j digits folded to `acc`, length n and `out` bytes in OBUF. -/
def decoding (c : Config) (acc : BitVec 33) (j : BitVec 3) (n out : BitVec 32) : State :=
  { State.resetOf c with
    stat := { (State.resetOf c).stat with state := .dec }, acc := acc, dcnt := j, lcnt := n, olen := out }

/-- The reset block with a stream error LIMIT. -/
def inError : State :=
  { State.reset with stat := { State.reset.stat with state := .err, err := .limit } }

/-- The reset block with four guard fields. -/
def guarding (n x m r : BitVec 32) : State := { State.reset with gN := n, gXor := x, gSum := m, gRot := r }

/-- R45. -/
theorem test_reset_stat : regRead 0x00 State.reset = 0x00001000#64 := by decide

/-- V-C1. -/
theorem test_nop : fieldAfter .nop State.reset id = some State.reset := by decide

/-- V-C8. -/
theorem test_set_ctrl : fieldAfter (.setCtrl true) State.reset (fun t => (t.stat.word, t.padFinal)) = some (0x00001000, true) := by
  decide

/-- V-C15. -/
theorem test_set_ctrl_in_enc :
    fieldAfter (.setCtrl true) (encoding Config.standard 0 0 0 0) (fun t => (t.stat.word, t.padFinal)) =
      some (0x00091001, false) := by decide

/-- V-C20, from the STAT that V-C5 ends in (log entry 14). -/
theorem test_clr_cmd_err :
    fieldAfter .clrCmdErr (cmdError .reservedOpcode State.reset) (fun t => t.stat.word) = some 0x00001000 := by decide

/-- V-G6. -/
theorem test_grp_enc_largest :
    fieldAfter (.grpEnc 0xFFFFFFFF) State.reset (fun t => (t.qdig, t.qchr)) = some (0x522ED8600, 0x7338572D21) := by decide

/-- V-G1: with EXC ZY the zero group is still five digits. -/
theorem test_grp_enc_no_exception :
    fieldAfter (.grpEnc 0) (State.resetOf zyConfig) (fun t => t.qchr) = some 0x2121212121 := by decide

/-- V-H3 and V-H4. -/
theorem test_grp_dec_boundary :
    fieldAfter (.grpDec 0x73 0x38 0x57 0x2D 0x21) State.reset (fun t => (t.gw, t.stat.gerr)) = some (0xFFFFFFFF, .ok) ∧
    fieldAfter (.grpDec 0x73 0x38 0x57 0x2D 0x22) State.reset (fun t => (t.gw, t.stat.gerr)) = some (0, .overflow) := by decide

/-- V-H9. -/
theorem test_grp_dec_exception_is_no_digit :
    fieldAfter (.grpDec 0x39 0x6A 0x71 0x6F 0x7A) (State.resetOf zyConfig) (fun t => (t.gw, t.stat.gerr)) =
      some (0, .unrecognizedChar) := by decide

/-- P1 step 1, from ERR (R121). -/
theorem test_enc_start_leaves_error : fieldAfter .encStart inError (fun t => t.stat.word) = some 0x00001001 := by decide

/-- P1 step 4. -/
theorem test_enc_byte_lane :
    fieldAfter (.encByte 0x6E) (encoding Config.standard 0x4D610000 2 2 0) (fun t => (t.ebuf, t.ebcnt, t.ecnt)) =
      some (0x4D616E00, 3, 3) := by decide

/-- P1 step 5. -/
theorem test_enc_byte_group :
    fieldAfter (.encByte 0x20) (encoding Config.standard 0x4D616E00 3 3 0) output =
      some [some 0x39, some 0x6A, some 0x71, some 0x6F, some 0x5E] := by decide

/-- P1 step 8: the three characters kept of the padded group 0x69730000. -/
theorem test_enc_end_truncates :
    fieldAfter .encEnd (encoding Config.standard 0x69730000 2 6 0) (fun t => (t.stat.word, output t)) =
      some (0x00001003, [some 0x42, some 0x6C, some 0x61]) := by decide

/-- V-E10: the lone exception character of the padded zero group is truncated away. -/
theorem test_enc_end_exception_lost :
    fieldAfter .encEnd (encoding zyConfig 0 1 1 0) (fun t => (t.stat.word, t.olen)) = some (0x00001003, 0) := by decide

/-- V-C22. -/
theorem test_dec_start_abandons :
    fieldAfter .decStart (encoding Config.standard 0x4D000000 1 1 0) (fun t => (t.stat.word, t.ebuf, t.ebcnt, t.ecnt)) =
      some (0x00001002, 0x4D000000, 1, 1) := by decide

/-- P2 step 6. -/
theorem test_dec_char_completes :
    fieldAfter (.decChar 0x5E) (decoding Config.standard 15273303 4 4 0) (fun t => (output t, t.lcnt)) =
      some ([some 0x4D, some 0x61, some 0x6E, some 0x20], 5) := by decide

/-- V-D15: an exception character after two digits. -/
theorem test_dec_char_misplaced :
    fieldAfter (.decChar 0x7A) (decoding zyConfig 2113 2 2 0) (fun t => (t.stat.word, t.lcnt)) = some (0x00001024, 2) := by decide

/-- P2 step 11, on its own quintet. -/
theorem test_dec_end_pads :
    fieldAfter .decEnd (decoding Config.standard 244864 3 13 0) output = some [some 0x69, some 0x73] := by decide

/-- V-D25. -/
theorem test_dec_end_overflow :
    fieldAfter .decEnd (decoding Config.standard 82 1 1 0) (fun t => t.stat.word) = some 0x00001034 := by decide

/-- V-K13. -/
theorem test_g_clear :
    fieldAfter .gClear { guarding 4 0x62 0x140 0x4E8 with stat := { State.reset.stat with gmatch := false } }
      (fun t => (t.stat.word, t.gN, t.gXor, t.gSum, t.gRot)) = some (0x00001000, 0, 0, 0, 0) := by decide

/-- P1 step 15. -/
theorem test_g_byte :
    fieldAfter (.gByte 0x73) (guarding 5 0xB 0x1AA 0xA39) (fun t => (t.gN, t.gXor, t.gSum, t.gRot)) =
      some (6, 0x78, 0x21E, 0x14E5) := by decide

/-- V-K15. -/
theorem test_g_byte_limit :
    fieldAfter (.gByte 0) (guarding 0xFFFFFFFF 0 0 0) (fun t => (t.stat.word, t.gN)) = some (0x000B1000, 0xFFFFFFFF) := by decide

/-- V-K12. -/
theorem test_g_cmp :
    fieldAfter (.gCmp .rot 0x4E9) (guarding 4 0x62 0x140 0x4E8) (fun t => t.stat.gmatch) = some false ∧
    fieldAfter (.gCmp .rot 0x4E8) (guarding 4 0x62 0x140 0x4E8) (fun t => t.stat.gmatch) = some true := by decide

/-- A step of a block with the standard configuration takes its action. -/
theorem step_standard {s : State} (h : s.cfg = Config.standard) : step s = takeAction s :=
  step_eq_takeAction (h ▸ test_standard_is_instance.1) (h ▸ test_standard_is_instance.2)

/-- V-C10: the first word after reset, rejected with WRONG_STATE. -/
theorem test_step_wrong_state :
    (after (step (State.reset.withFetchWord 64 0x21))).map (fun t => (t.stat.word, t.pending)) = some (0x00091000, []) := by
  rw [step_standard rfl]; decide

/-- P1 step 1 as the first word after reset. -/
theorem test_step_enc_start :
    (after (step (State.reset.withFetchWord 64 0x20))).map (fun t => t.stat.word) = some 0x00001001 := by
  rw [step_standard rfl]; decide

/-- R220: the reset input ends a stream error. -/
theorem test_step_reset :
    (after (step { inError with pending := [.reset] })).map (fun t => t.stat.word) = some 0x00001000 := by
  rw [step_standard rfl]; decide

/-! Witnesses: a state and operands that meet the hypotheses of each statement, clause by clause -/

/-- The reset block of configuration c with actions pending. -/
def pendingOn (c : Config) (as : List HostAction) : State := { State.resetOf c with pending := as }

/-- The reset block whose STATE is st. -/
def inState (st : StreamState) : State := { State.reset with stat := { State.reset.stat with state := st } }

/-- OBUF_CAP = 5, the least capacity; EXC Z. -/
def smallConfig : Config := { Config.standard with exc := [zeroGroupPreset 0x7A], obufCap := 5 }

theorem test_small_is_instance : IsInstance smallConfig := isInstance_over_standard rfl (by decide)

/-- The state after a step that answers one. -/
theorem after_some {o : Host.Outcome State Fault Refusal} (h : (after o).isSome = true) : ∃ t, o = .next t := by
  cases o with
  | next t => exact ⟨t, rfl⟩
  | fault r => simp [after] at h
  | refused r => simp [after] at h

theorem step_some {s : State} (h : s.cfg = Config.standard) (ht : (after (takeAction s)).isSome = true) :
    ∃ t, step s = .next t := by
  rw [step_standard h]; exact after_some ht

theorem witness_EncodeOfDecodeIsTheWord : decode 0xFFFFFFFF00000342#64 = .ok (.gCmp .rot 0xFFFFFFFF) := by decide

theorem witness_StepRunsTheDecodedCommand :
    let s := pendingOn Config.standard [.issue 0x0000000000000020#64]
    IsInstance s.cfg ∧ s.pending = .issue 0x0000000000000020#64 :: [] ∧ decode 0x0000000000000020#64 = .ok .encStart :=
  ⟨test_standard_is_instance, by decide, by decide⟩

/-- A word for each clause: opcodes 0x43 and 0x03, B = 2 of SET_CTRL, B = 4 and B = 3 of G_CMP. -/
theorem witness_EveryWordIsCheckedInOrder :
    (∀ cmd : Cmd, IsInstance (pendingOn Config.standard [.issue cmd]).cfg ∧
      (pendingOn Config.standard [.issue cmd]).pending = .issue cmd :: []) ∧
    (∀ w ∈ [0x43, 0x03], (BitVec.ofNat 64 w).toNat % 2 ^ 8 ∉
      [0x00, 0x01, 0x02, 0x10, 0x11, 0x20, 0x21, 0x22, 0x30, 0x31, 0x32, 0x40, 0x41, 0x42]) ∧
    ((0x0201#64).toNat % 2 ^ 8 = 0x01 ∧ (0x0201#64).toNat / 2 ^ 8 % 2 ^ 8 / 2 ≠ 0) ∧
    ((0x0442#64).toNat % 2 ^ 8 = 0x42 ∧ (0x0442#64).toNat / 2 ^ 16 = 0 ∧ 3 < (0x0442#64).toNat / 2 ^ 8 % 2 ^ 8) ∧
    ((0x0342#64).toNat % 2 ^ 8 = 0x42 ∧ (0x0342#64).toNat / 2 ^ 16 = 0 ∧ ¬3 < (0x0342#64).toNat / 2 ^ 8 % 2 ^ 8) :=
  ⟨fun _ => ⟨test_standard_is_instance, rfl⟩, by decide, by decide, by decide, by decide⟩

theorem witness_IdleBlockHoldsItsState : IsInstance State.reset.cfg ∧ State.reset.pending = [] :=
  ⟨test_standard_is_instance, by decide⟩

theorem witness_ConfigNotOkHasNoStep : (State.resetOf clashConfig).cfg.configOk = false := test_exception_in_alphabet_refused.2.2

theorem witness_ResetInputSetsTheResetValues :
    IsInstance (pendingOn zyConfig [.reset]).cfg ∧ (pendingOn zyConfig [.reset]).pending = .reset :: [] :=
  ⟨test_zy_is_instance, by decide⟩

theorem witness_RegisterReadPort :
    IsInstance (pendingOn Config.standard [.readReg 0x10]).cfg ∧
    (pendingOn Config.standard [.readReg 0x10]).pending = .readReg 0x10 :: [] ∧ 0x10 ≤ (0x10 : BitVec 8).toNat ∧
    ¬0x10 ≤ (0x0F : BitVec 8).toNat :=
  ⟨test_standard_is_instance, by decide, by decide, by decide⟩

/-- OLEN = 5 = OBUF_CAP: the last valid byte, and the first index past it. -/
theorem witness_BufferReadPort :
    let s := { pendingOn smallConfig [.readBuf 4] with olen := 5, obuf := [(4, 0xAB)] }
    let t := { s with pending := [.readBuf 5] }
    (IsInstance s.cfg ∧ s.pending = .readBuf 4 :: [] ∧ t.pending = .readBuf 5 :: []) ∧
    ((4 : BitVec 32).toNat < s.olen.toNat ∧ (4 : BitVec 32).toNat < s.cfg.obufCap ∧ s.obuf.read 4 = some 0xAB) ∧
    t.olen.toNat ≤ (5 : BitVec 32).toNat :=
  ⟨⟨test_small_is_instance, by decide, by decide⟩, by decide, by decide⟩

theorem witness_BufferIndexObufLacksFaults :
    let s := { pendingOn smallConfig [.readBuf 5] with olen := 6 }
    IsInstance s.cfg ∧ s.pending = .readBuf 5 :: [] ∧ (5 : BitVec 32).toNat < s.olen.toNat ∧
      s.cfg.obufCap ≤ (5 : BitVec 32).toNat :=
  ⟨test_small_is_instance, by decide, by decide, by decide⟩

theorem witness_SetCtrlWritesPadFinal :
    ((inState .enc).stat.state = .enc ∨ (inState .enc).stat.state = .dec) ∧
    ((inState .err).stat.state = .idle ∨ (inState .err).stat.state = .done ∨ (inState .err).stat.state = .err) := by decide

theorem witness_QuintetOverflowsAboveTheLargestGroup :
    (4294967296 ≤ 4437053124 ∧ 4294967295 < 4294967296) ∧ (4294967295 ≤ 4437053124 ∧ 4294967295 ≤ 4294967295) := by decide

/-- V-H9 for the first clause; V-H4 and V-H3, at 2^32 and 2^32 - 1, for the others. -/
theorem witness_GrpDecDecodesOrReports :
    (∃ c ∈ [0x39, 0x6A, 0x71, 0x6F, 0x7A], State.reset.cfg.charMap c = none) ∧
    (State.reset.cfg.charMap 0x73 = some 82 ∧ State.reset.cfg.charMap 0x38 = some 23 ∧
      State.reset.cfg.charMap 0x57 = some 54 ∧ State.reset.cfg.charMap 0x2D = some 12 ∧
      State.reset.cfg.charMap 0x22 = some 1 ∧ State.reset.cfg.charMap 0x21 = some 0) ∧
    82 * 52200625 + 23 * 614125 + 54 * 7225 + 12 * 85 + 1 = 4294967295 + 1 ∧
    82 * 52200625 + 23 * 614125 + 54 * 7225 + 12 * 85 + 0 = 4294967295 := by decide

theorem witness_GroupRoundTrip : (State.resetOf zyConfig).cfg.configOk = true := test_zy_is_instance.1

theorem witness_GroupCharactersExceptionFirst :
    zyConfig.excChr 0x20202020 = some 0x79 ∧ zyConfig.excChr 0x20202000 = none := by decide

/-- A state for each clause: IDLE, ERR, ECNT = MAXCNT, EBCNT = 2, and EBCNT = 3 with OLEN one past, and at, the last that fits. -/
theorem witness_EncByteTakesOneByte :
    let full := encoding Config.standard 0 0 0xFFFFFFFF 0
    let third := encoding Config.standard 0x4D610000 2 0xFFFFFFFE 0
    let tight := encoding smallConfig 0x4D616E00 3 3 1
    let fits := encoding smallConfig 0x4D616E00 3 3 0
    (Config.standard.capacityOk = true ∧ smallConfig.capacityOk = true) ∧
    (State.reset.stat.state ≠ .enc ∧ State.reset.stat.state ≠ .err) ∧ inError.stat.state = .err ∧
    (full.stat.state = .enc ∧ full.ecnt.toNat = 4294967295) ∧
    (third.stat.state = .enc ∧ third.ecnt.toNat < 4294967295 ∧ third.ebcnt.toNat < 3) ∧
    (tight.stat.state = .enc ∧ tight.ecnt.toNat < 4294967295 ∧ tight.ebcnt.toNat = 3 ∧
      tight.cfg.obufCap < tight.olen.toNat + (groupChars tight.cfg (tight.ebuf ||| (0x20 : Byte).setWidth 32)).length) ∧
    (fits.stat.state = .enc ∧ fits.ecnt.toNat < 4294967295 ∧ fits.ebcnt.toNat = 3 ∧
      fits.olen.toNat + (groupChars fits.cfg (fits.ebuf ||| (0x20 : Byte).setWidth 32)).length ≤ fits.cfg.obufCap) := by decide

theorem witness_EncEndPadsAndTruncates :
    let whole := encoding smallConfig 0 0 4 5
    let tight := encoding smallConfig 0x69000000 1 5 1
    let fits := encoding smallConfig 0x69000000 1 5 0
    smallConfig.capacityOk = true ∧ (State.reset.stat.state ≠ .enc ∧ State.reset.stat.state ≠ .err) ∧
    inError.stat.state = .err ∧ (whole.stat.state = .enc ∧ (4 - whole.ebcnt.toNat) % 4 = 0) ∧
    (tight.stat.state = .enc ∧ (4 - tight.ebcnt.toNat) % 4 ≠ 0 ∧
      tight.cfg.obufCap < tight.olen.toNat + (groupChars tight.cfg tight.ebuf).length) ∧
    (fits.stat.state = .enc ∧ (4 - fits.ebcnt.toNat) % 4 ≠ 0 ∧
      fits.olen.toNat + (groupChars fits.cfg fits.ebuf).length ≤ fits.cfg.obufCap) := by decide

theorem witness_DecCharStateCheckAndUnknownCharacter :
    let s := decoding zyConfig 0 0 0 0
    (State.reset.stat.state ≠ .dec ∧ State.reset.stat.state ≠ .err) ∧ inError.stat.state = .err ∧
    (s.stat.state = .dec ∧ s.cfg.charMap 0x7E = none ∧ s.cfg.excKey 0x7E = none) := by decide

/-- A state for each clause: LCNT = MAXCNT; a fourth digit; a fifth that gives 2^32; and a fifth that gives 2^32 - 1 with OLEN one past,
and at, the last that fits. -/
theorem witness_DecCharFoldsADigit :
    let full := decoding smallConfig 0 0 0xFFFFFFFF 0
    let fourth := decoding smallConfig 0 3 0xFFFFFFFE 0
    let tight := decoding smallConfig 50529027 4 4 2
    let fits := decoding smallConfig 50529027 4 4 1
    (smallConfig.capacityOk = true ∧ smallConfig.charMap 0x21 = some 0 ∧ smallConfig.charMap 0x22 = some 1) ∧
    (full.stat.state = .dec ∧ full.lcnt.toNat = 4294967295) ∧
    (fourth.stat.state = .dec ∧ fourth.lcnt.toNat < 4294967295 ∧ fourth.dcnt.toNat + 1 ≠ 5) ∧
    (fits.stat.state = .dec ∧ fits.lcnt.toNat < 4294967295 ∧ fits.dcnt.toNat + 1 = 5 ∧
      4294967295 < fits.acc.toNat * 85 + 1) ∧
    (tight.stat.state = .dec ∧ tight.lcnt.toNat < 4294967295 ∧ tight.dcnt.toNat + 1 = 5 ∧
      tight.acc.toNat * 85 + 0 ≤ 4294967295 ∧ tight.cfg.obufCap < tight.olen.toNat + 4) ∧
    (fits.acc.toNat * 85 + 0 ≤ 4294967295 ∧ fits.olen.toNat + 4 ≤ fits.cfg.obufCap) := by decide

/-- V-D35 and its neighbour LCNT = 0xFFFFFFFA. -/
theorem witness_DecCharExpandsAnException :
    let misplaced := decoding smallConfig 24 1 1 0
    let full := decoding smallConfig 0 0 0xFFFFFFFB 0
    let tight := decoding smallConfig 0 0 0xFFFFFFFA 2
    let fits := decoding smallConfig 0 0 0xFFFFFFFA 1
    (smallConfig.capacityOk = true ∧ smallConfig.charMap 0x7A = none ∧ smallConfig.excKey 0x7A = some 0) ∧
    (misplaced.stat.state = .dec ∧ misplaced.dcnt.toNat ≠ 0) ∧
    (full.stat.state = .dec ∧ full.dcnt.toNat = 0 ∧ 4294967295 < full.lcnt.toNat + 5) ∧
    (tight.stat.state = .dec ∧ tight.dcnt.toNat = 0 ∧ tight.lcnt.toNat + 5 ≤ 4294967295 ∧
      tight.cfg.obufCap < tight.olen.toNat + 4) ∧
    (fits.stat.state = .dec ∧ fits.lcnt.toNat + 5 ≤ 4294967295 ∧ fits.olen.toNat + 4 ≤ fits.cfg.obufCap) := by decide

/-- The digits 82 and 81 alone are the two sides of the overflow (V-D25, V-D24). -/
theorem witness_DecEndCompletesTheQuintet :
    let whole := decoding smallConfig 0 0 5 4
    let big := decoding smallConfig 82 1 1 0
    let tight := decoding smallConfig 81 1 1 2
    let fits := decoding smallConfig 81 1 1 1
    smallConfig.capacityOk = true ∧ (State.reset.stat.state ≠ .dec ∧ State.reset.stat.state ≠ .err) ∧
    inError.stat.state = .err ∧ (whole.stat.state = .dec ∧ whole.lcnt.toNat % 5 = 0) ∧
    (big.stat.state = .dec ∧ big.lcnt.toNat % 5 = 1 ∧ 4294967295 < big.acc.toNat * 85 ^ 4 + (85 ^ 4 - 1)) ∧
    (tight.stat.state = .dec ∧ tight.lcnt.toNat % 5 = 1 ∧ tight.acc.toNat * 85 ^ 4 + (85 ^ 4 - 1) ≤ 4294967295 ∧
      tight.cfg.obufCap < tight.olen.toNat + 4) ∧
    (fits.stat.state = .dec ∧ fits.olen.toNat + 4 ≤ fits.cfg.obufCap) := by decide

theorem witness_GByteAccumulates :
    (guarding 0xFFFFFFFF 0 0 0).gN.toNat = 4294967295 ∧ (guarding 0xFFFFFFFE 0 0 0).gN.toNat < 4294967295 := by decide

theorem witness_GCmpClearsGmatchOnAMismatch :
    (guarding 4 0x62 0x140 0x4E8).gRot = 0x4E8 ∧ (guarding 4 0x62 0x140 0x4E8).gRot ≠ 0x4E9 := by decide

theorem witness_ResetHasTheInvariant : IsInstance zyConfig := test_zy_is_instance

/-- The block after P1 step 2, with P1 step 3 pending. -/
def midEncode : State := { encoding Config.standard 0x4D000000 1 1 0 with pending := [.issue 0x6121#64] }

theorem midEncode_inv : Inv midEncode where
  config := test_standard_is_instance.1
  capacity := test_standard_is_instance.2
  memory := by decide
  inside := by decide
  written := by decide
  encCount := by decide
  encLanes := by decide
  decCount := by decide
  errEmpty := by decide
  xorByte := by decide
  olenBound := by decide
  errRecord := by decide
  cmdRecord := by decide

theorem witness_StepKeepsTheInvariant : Inv midEncode ∧ ∃ t, step midEncode = .next t :=
  ⟨midEncode_inv, step_some rfl (by decide)⟩

theorem witness_StepNeverStops : Inv midEncode := midEncode_inv

theorem witness_ConfigurationNeverChanges : ∃ t, step midEncode = .next t := step_some rfl (by decide)

theorem witness_UnitsWriteOnlyTheirRegisters :
    (unitOf (.grpEnc 1) = .group ∧ ∃ t, exec (.grpEnc 1) midEncode = .next t) ∧
    (unitOf (.gByte 1) = .guard ∧ ∃ t, exec (.gByte 1) midEncode = .next t) ∧
    (unitOf (.encByte 1) = .stream ∧ ∃ t, exec (.encByte 1) midEncode = .next t) ∧
    (unitOf (.setCtrl true) = .control ∧ ∃ t, exec (.setCtrl true) midEncode = .next t) :=
  ⟨⟨rfl, after_some (by decide)⟩, ⟨rfl, after_some (by decide)⟩, ⟨rfl, after_some (by decide)⟩,
    ⟨rfl, after_some (by decide)⟩⟩

/-- The two states differ in what a stream operation does not read. -/
theorem witness_InterleavingDoesNotDisturbAStream :
    StreamAgree midEncode { midEncode with gw := 7, gN := 3 } ∧ unitOf (.encByte 1) = .stream ∧ unitOf (.gByte 1) = .guard ∧
      ∃ t, exec (.gByte 1) midEncode = .next t :=
  ⟨⟨rfl, rfl, rfl, rfl, rfl, rfl, rfl, rfl, rfl, rfl, rfl, rfl⟩, rfl, rfl, after_some (by decide)⟩

theorem witness_CmdErrIsSticky :
    let s := { cmdError .wrongState State.reset with pending := [.issue 0#64] }
    s.stat.cmdErr = true ∧ (∃ t, step s = .next t) ∧ s.pending.head? ≠ some .reset ∧
      s.pending.head? ≠ some (.issue 0x0000000000000002#64) :=
  ⟨by decide, step_some rfl (by decide), by decide, by decide⟩

theorem witness_StreamErrorIsLeftOnlyByAStartOrReset :
    let s := { inError with pending := [.issue 0x0000000000002131#64] }
    s.stat.state = .err ∧ (∃ t, step s = .next t) ∧ s.pending.head? ≠ some .reset ∧
      s.pending.head? ≠ some (.issue 0x0000000000000020#64) ∧ s.pending.head? ≠ some (.issue 0x0000000000000030#64) :=
  ⟨by decide, step_some rfl (by decide), by decide, by decide, by decide⟩

theorem witness_PadFinalIsConstantInAStream :
    (midEncode.stat.state = .enc ∨ midEncode.stat.state = .dec) ∧ (∃ t, step midEncode = .next t) ∧
      midEncode.pending.head? ≠ some .reset :=
  ⟨by decide, step_some rfl (by decide), by decide⟩

theorem witness_OnlyGClearRestoresGmatch :
    let s := { State.reset with stat := { State.reset.stat with gmatch := false }, pending := [.issue 0x42#64] }
    s.stat.gmatch = false ∧ (∃ t, step s = .next t) ∧ s.pending.head? ≠ some .reset ∧
      s.pending.head? ≠ some (.issue 0x0000000000000040#64) :=
  ⟨by decide, step_some rfl (by decide), by decide, by decide⟩

theorem witness_EbufHoldsThePartialGroup :
    let bs : List Byte := [0x4D, 0x61, 0x6E]
    let s := pendingOn Config.standard (issueAll (.encStart :: bs.map .encByte) ++ [])
    IsInstance s.cfg ∧ bs.length ≤ 3 ∧ s.pending = issueAll (.encStart :: bs.map .encByte) ++ [] :=
  ⟨test_standard_is_instance, by decide, rfl⟩

/-- "Man " fills a capacity of 5, and one byte more does not fit. -/
theorem witness_EncodeRunComputesEncode :
    let x : List Byte := [0x4D, 0x61, 0x6E, 0x20]
    let s := pendingOn smallConfig (issueAll (Pseudo.encode x).expand ++ [])
    IsInstance s.cfg ∧ s.pending = issueAll (Pseudo.encode x).expand ++ [] ∧
    (x.length ≤ 4294967295 ∧ (encodeUntruncated s.cfg x).length ≤ s.cfg.obufCap) ∧
    ¬((x ++ [0x69]).length ≤ 4294967295 ∧ (encodeUntruncated s.cfg (x ++ [0x69])).length ≤ s.cfg.obufCap) :=
  ⟨test_small_is_instance, rfl, by decide, by decide⟩

/-- V-D8, short enough to raise no LIMIT, and V-D25. -/
theorem witness_DecodeRunComputesDecode :
    let s := pendingOn Config.standard (issueAll (Pseudo.decode [0x39, 0x6A]).expand ++ [])
    IsInstance s.cfg ∧ s.pending = issueAll (Pseudo.decode [0x39, 0x6A]).expand ++ [] ∧
    (∃ t, step s = .next t) ∧ decodeAll s.cfg [0x39, 0x6A] s.padFinal = .ok [0x4D] ∧
    decodeAll s.cfg [0x73] s.padFinal = .error .overflow ∧ 5 * 2 ≤ 4294967295 ∧ 4 * 2 ≤ s.cfg.obufCap :=
  ⟨test_standard_is_instance, rfl, step_some rfl (by decide), by decide, by decide, by decide, by decide⟩

theorem witness_DecodeInvertsEncode :
    zyConfig.configOk = true ∧ ([0, 0, 0, 0] : List Byte).length % 4 = 0 ∧
    (groupsOf (zeroPadded [0x4D])).getLast? = some 0x4D000000 ∧ zyConfig.excChr 0x4D000000 = none :=
  ⟨test_zy_is_instance.1, by decide, by decide, by decide⟩

/-- V-E12. -/
theorem witness_FinalGroupExceptionLosesData :
    0 < (4 - ([0x41, 0x42, 0x43, 0x44, 0x00] : List Byte).length % 4) % 4 ∧
    (groupsOf (zeroPadded [0x41, 0x42, 0x43, 0x44, 0x00])).getLast? = some 0 ∧ zyConfig.excChr 0 = some 0x7A := by decide

/-- V-E28. -/
theorem witness_EncodedLength :
    ([0, 0, 0, 0, 0x41] : List Byte).length % 4 ≠ 0 ∧
    (groupsOf (zeroPadded [0, 0, 0, 0, 0x41])).getLast? = some 0x41000000 ∧ zyConfig.excChr 0x41000000 = none := by decide

theorem witness_EmptyEncodeIsEmpty :
    let s := pendingOn Config.standard (issueAll (Pseudo.encode []).expand ++ [])
    IsInstance s.cfg ∧ s.pending = issueAll (Pseudo.encode []).expand ++ [] :=
  ⟨test_standard_is_instance, rfl⟩

theorem witness_ZeroGroupExceptionRoundTrip :
    let s := pendingOn zyConfig (issueAll ((Pseudo.encode [0, 0, 0, 0]).expand ++ (Pseudo.decode [0x7A]).expand) ++ [])
    IsInstance s.cfg ∧ s.cfg.excChr 0 = some 0x7A ∧
    s.pending = issueAll ((Pseudo.encode [0, 0, 0, 0]).expand ++ (Pseudo.decode [0x7A]).expand) ++ [] :=
  ⟨test_zy_is_instance, by decide, rfl⟩

theorem witness_OneLeftoverDigit :
    (Config.standard.charMap 0x72 = some 81 ∧ 81 ≤ 81) ∧ (Config.standard.charMap 0x73 = some 82 ∧ 82 ≤ 82) := by decide

theorem witness_GuardRunComputesGenerate :
    let s := pendingOn Config.standard (issueAll (Pseudo.guard [0x4D]).expand ++ [])
    IsInstance s.cfg ∧ ([0x4D] : List Byte).length ≤ 4294967295 ∧ s.pending = issueAll (Pseudo.guard [0x4D]).expand ++ [] :=
  ⟨test_standard_is_instance, by decide, rfl⟩

theorem witness_ValidateRunAnswersInGmatch :
    let as := (Pseudo.guard [0x4D]).expand ++ (Pseudo.validate 1 1 0x4D 0x4E 0x4D).expand
    let s := pendingOn Config.standard (issueAll as ++ [])
    IsInstance s.cfg ∧ ([0x4D] : List Byte).length ≤ 4294967295 ∧ s.pending = issueAll as ++ [] :=
  ⟨test_standard_is_instance, by decide, rfl⟩

/-- V-K10: the last byte of "Man " changed to 0x21. -/
theorem witness_OneByteChangeIsDetected :
    ([0x4D, 0x61, 0x6E, 0x20] : List Byte)[3]? = some 0x20 ∧ (0x21 : Byte) ≠ 0x20 := by decide

theorem witness_GuardChecksumLaws : List.Perm ([0x4D, 0x61] : List Byte) [0x61, 0x4D] := List.Perm.swap _ _ _

end Sys2Proof.Tests
end

section
/-! SUPPORT. CONFIG_OK clause by clause (00_scope R7), and the step of a configuration that fails it. -/

namespace Sys2Proof

namespace Config

/-- R7(a). -/
@[simp] theorem lengthOk_iff (c : Config) : c.lengthOk = true ↔ c.alphabet.length = 85 := beq_iff_eq

/-- R7(b). -/
@[simp] theorem alphabetDistinct_iff (c : Config) : c.alphabetDistinct = true ↔ c.alphabet.Nodup :=
  allDistinct_iff_nodup _

/-- R7(d), first half. -/
@[simp] theorem keysDistinct_iff (c : Config) : c.keysDistinct = true ↔ (c.exc.map ExcEntry.key).Nodup :=
  allDistinct_iff_nodup _

/-- R7(d), second half. -/
@[simp] theorem chrsDistinct_iff (c : Config) : c.chrsDistinct = true ↔ (c.exc.map ExcEntry.chr).Nodup :=
  allDistinct_iff_nodup _

/-- R7(e). -/
@[simp] theorem excOutsideAlphabet_iff (c : Config) :
    c.excOutsideAlphabet = true ↔ ∀ e ∈ c.exc, e.chr ∉ c.alphabet := by
  simp only [excOutsideAlphabet, List.all_eq_true, decide_eq_true_eq, List.forall_mem_ne']

/-- CONFIG_OK is the conjunction of the clauses of R7. -/
theorem configOk_iff (c : Config) : c.configOk = true ↔
    c.alphabet.length = 85 ∧ c.alphabet.Nodup ∧ (c.exc.map ExcEntry.key).Nodup ∧ (c.exc.map ExcEntry.chr).Nodup ∧
      ∀ e ∈ c.exc, e.chr ∉ c.alphabet := by
  simp only [configOk, Bool.and_eq_true, lengthOk_iff, alphabetDistinct_iff, keysDistinct_iff, chrsDistinct_iff,
    excOutsideAlphabet_iff, and_assoc]

end Config

namespace Machine

/-- A configuration that is not CONFIG_OK is refused as such, whatever its capacity (R7). -/
theorem configRefusal_of_not_configOk {c : Config} (h : c.configOk = false) : configRefusal c = some .configNotOk :=
  if_pos h

/-- A refused configuration has no step but the refusal, whatever action is pending. -/
theorem step_of_configRefusal {s : State} {r : Refusal} (h : configRefusal s.cfg = some r) : step s = .refused r := by
  simp only [step, h]

/-- Settles O10: each check of `configOk` is its clause of R7, and `step` looks at the configuration before any action. -/
theorem configNotOkHasNoStep : Obligations.ConfigNotOkHasNoStep :=
  ⟨Config.configOk_iff, fun _ h => step_of_configRefusal (configRefusal_of_not_configOk h)⟩

end Machine

end Sys2Proof
end

section
/-! SUPPORT. The standard alphabet (10_state R41), the registers and the invariant after reset (R26, R45), the STAT word (R21). -/

namespace Sys2Proof

@[simp] theorem standard_alphabet_length : Config.standard.alphabet.length = 85 := by
  simp [Config.standard, standardAlphabet]

/-- R41. -/
theorem standard_alpha {d : Nat} (hd : d < 85) : Config.standard.alpha d = BitVec.ofNat 8 (0x21 + d) := by
  simp [Config.alpha, Config.standard, standardAlphabet, List.getD_eq_getElem?_getD, hd]

/-- The characters of the standard alphabet are the codes 0x21 to 0x75 (R41). -/
theorem mem_standard_alphabet {c : Byte} : c ∈ Config.standard.alphabet ↔ 0x21 ≤ c.toNat ∧ c.toNat ≤ 0x75 := by
  simp only [Config.standard, standardAlphabet, List.mem_map, List.mem_range]
  constructor
  · rintro ⟨d, hd, rfl⟩
    rw [BitVec.toNat_ofNat]
    omega
  · rintro ⟨h1, h2⟩
    exact ⟨c.toNat - 0x21, by omega, by rw [Nat.add_sub_cancel' h1, BitVec.ofNat_toNat, BitVec.setWidth_eq]⟩

theorem standard_alphabet_nodup : Config.standard.alphabet.Nodup := by
  refine List.Nodup.map_on (fun d hd e he h => ?_) List.nodup_range
  have h' := congrArg BitVec.toNat h
  simp only [List.mem_range, BitVec.toNat_ofNat] at hd he h'
  omega

/-- R41: the inverse of the standard alphabet. -/
theorem standard_charMap (c : Byte) : Config.standard.charMap c =
    if 0x21 ≤ c.toNat ∧ c.toNat ≤ 0x75 then some (c.toNat - 0x21) else none := by
  split
  case isTrue h =>
    have hd : c.toNat - 0x21 < 85 := by omega
    have hc : Config.standard.alpha (c.toNat - 0x21) = c := by
      rw [standard_alpha hd, Nat.add_sub_cancel' h.1, BitVec.ofNat_toNat, BitVec.setWidth_eq]
    calc Config.standard.charMap c
        = Config.standard.charMap (Config.standard.alpha (c.toNat - 0x21)) := by rw [hc]
      _ = some (c.toNat - 0x21) := charMap_alpha standard_alphabet_nodup (by simpa using hd)
  case isFalse h => exact charMap_none_iff.2 (mt mem_standard_alphabet.1 h)

/-- Settles O11: the characters are the run of codes from 0x21, without repeats, so that `charMap` inverts `alpha`. -/
theorem standardAlphabetAndItsCharMap : Obligations.StandardAlphabetAndItsCharMap :=
  ⟨standard_alphabet_length, fun d => standard_alpha d.isLt, standard_charMap⟩

namespace Machine

/-- The 64-bit reading of STAT after reset: only GMATCH is 1 (R45, R21). -/
theorem reset_stat_word : (Stat.mk .idle .none .ok true false .none).word.setWidth 64 = 0x00001000#64 := by decide

/-- R45, R52. -/
theorem regRead_resetOf (c : Config) (i : BitVec 8) :
    regRead i (State.resetOf c) = if i.toNat = 0 then 0x00001000#64 else 0#64 := by
  by_cases h0 : i.toNat = 0
  · rw [if_pos h0]
    simp only [regRead, h0]
    exact reset_stat_word
  · rw [if_neg h0]
    unfold regRead
    split
    · exact absurd ‹_› h0
    all_goals rfl

/-- Settles O12: `State.resetOf` is read register by register. -/
theorem resetRegisters : Obligations.ResetRegisters :=
  ⟨fun c i => ⟨regRead_resetOf c i, rfl, fun _ => rfl⟩, Config.standard, rfl⟩

/-- The STAT word is the sum of its six field codes, each at its place (R21). -/
theorem Stat.word_toNat (t : Stat) :
    t.word.toNat = t.state.code.toNat + 2 ^ 4 * t.err.code.toNat + 2 ^ 8 * t.gerr.code.toNat +
      2 ^ 12 * (BitVec.ofBool t.gmatch).toNat + 2 ^ 16 * (BitVec.ofBool t.cmdErr).toNat +
      2 ^ 17 * t.cmdCause.code.toNat := by
  simp only [Stat.word, append_toNat, BitVec.toNat_ofNat]
  omega

/-- Settles O17: the word is the sum of its fields, and each field's code is read off its constructors. -/
theorem statWordLayout : Obligations.StatWordLayout := by
  intro t
  rw [Stat.word_toNat]
  congr 6
  · cases t.state <;> rfl
  · cases t.err <;> rfl
  · cases t.gerr <;> rfl
  · cases t.gmatch <;> rfl
  · cases t.cmdErr <;> rfl
  · cases t.cmdCause <;> rfl

/-- The block over the standard alphabet with no exceptions meets R7 and R5 (log entry 3). -/
theorem isInstance_standard : IsInstance Config.standard :=
  ⟨(Config.configOk_iff _).2 ⟨standard_alphabet_length, standard_alphabet_nodup, List.nodup_nil, List.nodup_nil, nofun⟩,
    by decide⟩

/-- R26, R45. -/
theorem inv_resetOf {c : Config} (hc : IsInstance c) : Inv (State.resetOf c) where
  config := hc.1
  capacity := hc.2
  memory := resetOf_wf c
  inside := nofun
  written := nofun
  encCount := nofun
  encLanes := rfl
  decCount := nofun
  errEmpty := nofun
  xorByte := by simp [State.resetOf]
  olenBound := Nat.zero_le _
  errRecord := by simp [State.resetOf]
  cmdRecord := by simp [State.resetOf]

/-- Settles O38: after reset no stream runs, nothing is counted and no error is recorded. -/
theorem resetHasTheInvariant : Obligations.ResetHasTheInvariant :=
  ⟨inv_resetOf isInstance_standard, fun _ => inv_resetOf⟩

end Machine

end Sys2Proof
end

section
/-! SUPPORT. All that each stream command can do in the state it runs in (41_stream_encode R122, R126; 42_stream_decode R142,
R145), and the causes a word is rejected with (30_encoding R74). -/

namespace Sys2Proof

/-- A word the shared checks reject has the cause RESERVED_FIELD; any other cause is that of the operands (R74). -/
theorem readFields_error {cmd : Cmd} {usesB usesW : Bool} {build : Byte → BitVec 32 → Except CmdCause Instr} {c : CmdCause}
    (h : readFields cmd usesB usesW build = .error c) :
    c = .reservedField ∨ build (cmdB cmd) (cmdW cmd) = .error c := by
  unfold readFields at h
  split at h
  · exact Or.inl (Except.error.inj h).symm
  · split at h
    · exact Or.inl (Except.error.inj h).symm
    · split at h
      · exact Or.inl (Except.error.inj h).symm
      · exact Or.inr h

theorem buildSetCtrl_error {b : Byte} {c : CmdCause} (h : buildSetCtrl b = .error c) : c = .reservedField := by
  unfold buildSetCtrl at h
  split at h
  · exact (Except.error.inj h).symm
  · cases h

theorem buildGCmp_error {b : Byte} {w : BitVec 32} {c : CmdCause} (h : buildGCmp b w = .error c) : c = .badOperand := by
  unfold buildGCmp at h
  split at h
  case h_5 => exact (Except.error.inj h).symm
  all_goals cases h

/-- A rejected word has one of the three causes of R74. -/
theorem decode_error {cmd : Cmd} {c : CmdCause} (h : decode cmd = .error c) :
    c = .reservedOpcode ∨ c = .reservedField ∨ c = .badOperand := by
  unfold decode at h
  split at h
  case h_15 => exact Or.inl (Except.error.inj h).symm
  case h_2 => exact Or.inr (Or.inl ((readFields_error h).elim id buildSetCtrl_error))
  case h_14 => exact Or.inr ((readFields_error h).imp id buildGCmp_error)
  all_goals exact Or.inr (Or.inl ((readFields_error h).resolve_right nofun))

namespace Machine

/-- All that ENC_BYTE can do in state ENC (R122, R124). -/
theorem encodeByte_cases (b : Byte) (s : State) :
    (s.ecnt.toNat = maxCnt ∧ encodeByte b s = streamError .limit s) ∨
      s.ecnt.toNat ≠ maxCnt ∧
        ((s.ebcnt.toNat < 3 ∧
            encodeByte b s =
              { s with
                ecnt := s.ecnt + 1
                ebuf := s.ebuf ||| byteLane s.ebcnt.toNat b
                ebcnt := BitVec.ofNat 2 (s.ebcnt.toNat + 1) }) ∨
          s.ebcnt.toNat = 3 ∧
            let chs := groupChars s.cfg (s.ebuf ||| b.setWidth 32)
            let s1 := { s with ecnt := s.ecnt + 1 }
            (s.cfg.obufCap < s.olen.toNat + chs.length ∧ encodeByte b s = streamError .limit s1) ∨
              s.olen.toNat + chs.length ≤ s.cfg.obufCap ∧
                encodeByte b s = { append chs s1 with ebuf := 0, ebcnt := 0 }) := by
  by_cases hn : s.ecnt.toNat = maxCnt
  · exact Or.inl ⟨hn, if_pos hn⟩
  · refine Or.inr ⟨hn, ?_⟩
    by_cases hk : s.ebcnt.toNat < 3
    · exact Or.inl ⟨hk, by simp only [encodeByte, if_neg hn, if_pos hk]⟩
    · refine Or.inr ⟨by have := s.ebcnt.isLt; omega, ?_⟩
      obtain ⟨hf, he⟩ | ⟨hf, he⟩ :=
        appendOrLimit_cases (groupChars s.cfg (s.ebuf ||| b.setWidth 32)) { s with ecnt := s.ecnt + 1 }
      · exact Or.inl ⟨hf, by simp only [encodeByte, if_neg hn, if_neg hk, emitGroup, he]⟩
      · exact Or.inr ⟨hf, by simp only [encodeByte, if_neg hn, if_neg hk, emitGroup, he]⟩

/-- All that ENC_END can do in state ENC: p bytes are missing in the last group (R126). -/
theorem encodeEnd_cases (s : State) :
    let p := (4 - s.ebcnt.toNat) % 4
    let chs := groupChars s.cfg s.ebuf
    (p = 0 ∧ encodeEnd s = finishStream s) ∨
      p ≠ 0 ∧
        ((s.cfg.obufCap < s.olen.toNat + chs.length ∧ encodeEnd s = streamError .limit s) ∨
          s.olen.toNat + chs.length ≤ s.cfg.obufCap ∧
            let s2 := { append chs s with ebuf := 0, ebcnt := 0 }
            encodeEnd s = finishStream (if s.padFinal = false then truncate p s2 else s2)) := by
  by_cases hp : (4 - s.ebcnt.toNat) % 4 = 0
  · exact Or.inl ⟨hp, if_neg (not_not.2 hp)⟩
  · refine Or.inr ⟨hp, ?_⟩
    obtain ⟨hf, he⟩ | ⟨hf, he⟩ := appendOrLimit_cases (groupChars s.cfg s.ebuf) s
    · exact Or.inl ⟨hf, by simp only [encodeEnd, if_pos (show _ ≠ 0 from hp), emitGroup, he]⟩
    · exact Or.inr ⟨hf, by simp only [encodeEnd, if_pos (show _ ≠ 0 from hp), emitGroup, he]⟩

/-- All that an alphabet digit can do in state DEC (R142 to R144). -/
theorem decodeDigit_cases (d : Nat) (s : State) :
    (maxCnt < s.lcnt.toNat + 1 ∧ decodeDigit d s = streamError .limit s) ∨
      s.lcnt.toNat + 1 ≤ maxCnt ∧
        let s1 := { s with lcnt := s.lcnt + 1 }
        ((s.dcnt.toNat ≠ 4 ∧
            decodeDigit d s =
              { s1 with acc := BitVec.ofNat 33 (fold s.acc.toNat d), dcnt := BitVec.ofNat 3 (s.dcnt.toNat + 1) }) ∨
          s.dcnt.toNat = 4 ∧
            ((decGroup (fold s.acc.toNat d) = none ∧ decodeDigit d s = streamError .overflow s1) ∨
              ∃ g, decGroup (fold s.acc.toNat d) = some g ∧
                ((s.cfg.obufCap < s.olen.toNat + 4 ∧ decodeDigit d s = streamError .limit s1) ∨
                  s.olen.toNat + 4 ≤ s.cfg.obufCap ∧
                    decodeDigit d s = { append (be4 g) s1 with acc := 0, dcnt := 0 }))) := by
  by_cases hn : maxCnt < s.lcnt.toNat + 1
  · exact Or.inl ⟨hn, if_pos hn⟩
  · refine Or.inr ⟨Nat.le_of_not_lt hn, ?_⟩
    by_cases hj : s.dcnt.toNat = 4
    · refine Or.inr ⟨hj, ?_⟩
      cases hg : decGroup (fold s.acc.toNat d) with
      | none => exact Or.inl ⟨rfl, by simp [decodeDigit, hn, hj, hg]⟩
      | some g =>
        refine Or.inr ⟨g, rfl, ?_⟩
        obtain ⟨hf, he⟩ | ⟨hf, he⟩ := appendOrLimit_cases (be4 g) { s with lcnt := s.lcnt + 1 }
        · exact Or.inl ⟨hf, by simp only [decodeDigit, gt_iff_lt, hn, hj, Nat.reduceAdd, reduceIte, hg, he]⟩
        · exact Or.inr ⟨hf, by simp only [decodeDigit, gt_iff_lt, hn, hj, Nat.reduceAdd, reduceIte, hg, he]⟩
    · exact Or.inl ⟨hj, by simp [decodeDigit, hn, hj]⟩

/-- All that an exception character can do in state DEC (R142, R143). -/
theorem decodeException_cases (g : Group) (s : State) :
    (s.dcnt.toNat ≠ 0 ∧ decodeException g s = streamError .misplacedException s) ∨
      s.dcnt.toNat = 0 ∧
        ((maxCnt < s.lcnt.toNat + 5 ∧ decodeException g s = streamError .limit s) ∨
          s.lcnt.toNat + 5 ≤ maxCnt ∧
            ((s.cfg.obufCap < s.olen.toNat + 4 ∧ decodeException g s = streamError .limit s) ∨
              s.olen.toNat + 4 ≤ s.cfg.obufCap ∧
                decodeException g s = { append (be4 g) s with lcnt := s.lcnt + 5 })) := by
  by_cases hj : s.dcnt.toNat = 0
  · refine Or.inr ⟨hj, ?_⟩
    by_cases hn : maxCnt < s.lcnt.toNat + 5
    · exact Or.inl ⟨hn, by simp [decodeException, hj, hn]⟩
    · refine Or.inr ⟨Nat.le_of_not_lt hn, ?_⟩
      obtain ⟨hf, he⟩ | ⟨hf, he⟩ := appendOrLimit_cases (be4 g) s
      · exact Or.inl ⟨hf, by simp [decodeException, hj, hn, he]⟩
      · exact Or.inr ⟨hf, by simp [decodeException, hj, hn, he]⟩
  · exact Or.inl ⟨hj, if_pos hj⟩

/-- All that DEC_END can do in state DEC: p digits are missing in the last quintet, and p bytes are cut off (R145). -/
theorem decodeEnd_cases (s : State) :
    let p := 5 - s.lcnt.toNat % 5
    (s.lcnt.toNat % 5 = 0 ∧ decodeEnd s = finishStream s) ∨
      s.lcnt.toNat % 5 ≠ 0 ∧
        ((decGroup (foldPad p s.acc.toNat) = none ∧ decodeEnd s = streamError .overflow s) ∨
          ∃ g, decGroup (foldPad p s.acc.toNat) = some g ∧
            ((s.cfg.obufCap < s.olen.toNat + 4 ∧ decodeEnd s = streamError .limit s) ∨
              s.olen.toNat + 4 ≤ s.cfg.obufCap ∧
                let s2 := { append (be4 g) s with acc := 0, dcnt := 0 }
                decodeEnd s = finishStream (if s.padFinal = false then truncate p s2 else s2))) := by
  by_cases hr : s.lcnt.toNat % 5 = 0
  · exact Or.inl ⟨hr, if_neg (not_not.2 hr)⟩
  · refine Or.inr ⟨hr, ?_⟩
    cases hg : decGroup (foldPad (5 - s.lcnt.toNat % 5) s.acc.toNat) with
    | none => exact Or.inl ⟨rfl, by simp [decodeEnd, hr, hg]⟩
    | some g =>
      refine Or.inr ⟨g, rfl, ?_⟩
      obtain ⟨hf, he⟩ | ⟨hf, he⟩ := appendOrLimit_cases (be4 g) s
      · exact Or.inl ⟨hf, by simp [decodeEnd, hr, hg, he]⟩
      · have hne : (s.lcnt.toNat : Int) ≠ s.lcnt.toNat - (5 - s.lcnt.toNat % 5 : Nat) := by omega
        exact Or.inr ⟨hf, by simp only [decodeEnd, if_pos (show _ ≠ 0 from hr), hg, he, hne, sub_sub_cancel,
          Int.toNat_natCast, ne_eq, not_false_eq_true, and_true]⟩

end Machine

end Sys2Proof
end

section
/-! SUPPORT. The numbers of the stream registers: the lanes of EBUF (10_state R24), the counters below MAXCNT (R5), the accumulator
of a quintet (R102). -/

namespace Sys2Proof.Machine

open Sys2Proof

/-- A counter that can count k more does so without wrapping round. -/
theorem counter_add_toNat {n : Counter} {k : Nat} (h : n.toNat + k ≤ maxCnt) :
    (n + BitVec.ofNat 32 k).toNat = n.toNat + k := by
  simp only [maxCnt] at h
  rw [BitVec.toNat_add, BitVec.toNat_ofNat]
  omega

/-- R24, R122. -/
theorem byteLane_toNat {k : Nat} (hk : k ≤ 3) (b : Byte) : (byteLane k b).toNat = b.toNat * 2 ^ (24 - 8 * k) := by
  have hb := b.isLt
  simp only [byteLane, BitVec.toNat_shiftLeft, BitVec.toNat_setWidth, Nat.shiftLeft_eq]
  interval_cases k <;> omega

/-- A byte put on the first lane that is free is added to the value (R24). -/
theorem or_byteLane_toNat {x : BitVec 32} {k : Nat} (hk : k ≤ 3) (hx : x.toNat % 2 ^ (32 - 8 * k) = 0) (b : Byte) :
    (x ||| byteLane k b).toNat = x.toNat + b.toNat * 2 ^ (24 - 8 * k) := by
  obtain ⟨q, hq⟩ := Nat.dvd_of_mod_eq_zero hx
  have hlt : b.toNat * 2 ^ (24 - 8 * k) < 2 ^ (32 - 8 * k) := by
    calc b.toNat * 2 ^ (24 - 8 * k) < 2 ^ 8 * 2 ^ (24 - 8 * k) := Nat.mul_lt_mul_of_pos_right b.isLt (Nat.two_pow_pos _)
      _ = 2 ^ (32 - 8 * k) := by rw [← Nat.pow_add]; congr 1; omega
  rw [BitVec.toNat_or, byteLane_toNat hk, hq, Nat.two_pow_add_eq_or_of_lt hlt]

/-- The lanes below a byte put on the first free lane stay zero (R24). -/
theorem or_byteLane_lanes {x : BitVec 32} {k : Nat} (hk : k ≤ 3) (hx : x.toNat % 2 ^ (32 - 8 * k) = 0) (b : Byte) :
    (x ||| byteLane k b).toNat % 2 ^ (32 - 8 * (k + 1)) = 0 := by
  rw [or_byteLane_toNat hk hx, show 32 - 8 * (k + 1) = 24 - 8 * k by omega]
  have hpow : 2 ^ (24 - 8 * k) ∣ 2 ^ (32 - 8 * k) := Nat.pow_dvd_pow 2 (by omega)
  exact Nat.mod_eq_zero_of_dvd
    (Nat.dvd_add (hpow.trans (Nat.dvd_of_mod_eq_zero hx)) (Nat.dvd_mul_left _ _))

/-- A byte put on the first free lane is read back there (R24). -/
theorem lane_or_byteLane_same {x : BitVec 32} {k : Nat} (hk : k ≤ 3) (hx : x.toNat % 2 ^ (32 - 8 * k) = 0) (b : Byte) :
    (x ||| byteLane k b).toNat / 2 ^ (24 - 8 * k) % 2 ^ 8 = b.toNat := by
  have hb := b.isLt
  rw [or_byteLane_toNat hk hx]
  interval_cases k <;> omega

/-- A byte put on the first free lane leaves the lanes in use (R24). -/
theorem lane_or_byteLane_before {x : BitVec 32} {i k : Nat} (hk : k ≤ 3) (hi : i < k)
    (hx : x.toNat % 2 ^ (32 - 8 * k) = 0) (b : Byte) :
    (x ||| byteLane k b).toNat / 2 ^ (24 - 8 * i) % 2 ^ 8 = x.toNat / 2 ^ (24 - 8 * i) % 2 ^ 8 := by
  have hb := b.isLt
  rw [or_byteLane_toNat hk hx]
  interval_cases k <;> interval_cases i <;> omega

/-- Folding a digit keeps an accumulator of j digits below 85^j (R102, R26). -/
theorem fold_lt {acc d j : Nat} (ha : acc < 85 ^ j) (hd : d < 85) : fold acc d < 85 ^ (j + 1) := by
  rw [fold, Nat.pow_succ]
  omega

/-- A digit of an 85-character alphabet is below 85 (R12, R7). -/
theorem charMap_lt {c : Config} (hc : c.configOk = true) {ch : Byte} {d : Nat} (h : c.charMap ch = some d) : d < 85 := by
  obtain ⟨hlen, -⟩ := (Config.configOk_iff c).1 hc
  exact hlen ▸ (charMap_some h).1

end Sys2Proof.Machine
end

section
/-! SUPPORT. Each shared operation keeps the invariant (10_state R26), and so does each command and each action. -/

namespace Sys2Proof.Machine

open Sys2Proof

variable {s : State}

/-! The shared operations -/

theorem inv_cmdError (h : Inv s) {c : CmdCause} (hc : c ≠ .none) : Inv (cmdError c s) :=
  { h with cmdRecord := iff_of_true rfl hc }

theorem inv_clearCmdError (h : Inv s) : Inv (clearCmdError s) :=
  { h with cmdRecord := by simp }

theorem inv_groupResult (h : Inv s) (e : GroupErr) : Inv (groupResult e s) := { h with }

theorem inv_clear (h : Inv s) : Inv (clear s) :=
  { h with
    written := nofun
    errEmpty := fun _ => rfl
    olenBound := Nat.zero_le _ }

/-- A stream error ends the operation that counts, whatever its counts are (R201). -/
theorem inv_streamError (h : Inv s) {e : StreamErr} (he : e ≠ .none) : Inv (streamError e s) :=
  { inv_clear h with
    encCount := nofun
    decCount := nofun
    errEmpty := fun _ => rfl
    errRecord := iff_of_true rfl he }

/-- Outside state ERR no error is recorded (R21, R205). -/
theorem Inv.err_eq_none (h : Inv s) (hs : s.stat.state ≠ .err) : s.stat.err = .none :=
  not_not.1 (mt h.errRecord.2 hs)

theorem inv_finishStream (h : Inv s) (hs : s.stat.state ≠ .err) : Inv (finishStream s) :=
  { h with
    encCount := nofun
    decCount := nofun
    errEmpty := nofun
    errRecord := iff_of_false nofun (not_not.2 (h.err_eq_none hs)) }

/-- OLEN only falls, and what it drops stays in OBUF (R11). -/
theorem inv_truncate (h : Inv s) (p : Nat) : Inv (truncate p s) := by
  have hle : (truncate p s).olen.toNat ≤ s.olen.toNat := by
    rw [truncate_olen, BitVec.toNat_ofNat]
    exact (Nat.mod_le _ _).trans (Nat.sub_le _ _)
  exact
    { h with
      written := fun a ha => h.written a (ha.trans_le hle)
      errEmpty := fun hs => by simp [h.errEmpty hs]
      olenBound := hle.trans h.olenBound }

/-- OBUF_CAP fits the 32-bit OLEN, so an append that fits does not wrap it round (R5, R20). -/
theorem Inv.append_olen_toNat (h : Inv s) {bs : List Byte} (hf : s.olen.toNat + bs.length ≤ s.cfg.obufCap) :
    (append bs s).olen.toNat = s.olen.toNat + bs.length := by
  have hcap := h.capacity
  simp only [Config.capacityOk, Bool.and_eq_true, decide_eq_true_eq] at hcap
  rw [append_olen, BitVec.toNat_ofNat, Nat.mod_eq_of_lt (by omega)]

/-- The bytes below OLEN before the append stand as they were, and those from there on have just been stored (R11). -/
theorem inv_append (h : Inv s) (hs : s.stat.state ≠ .err) {bs : List Byte}
    (hf : s.olen.toNat + bs.length ≤ s.cfg.obufCap) : Inv (append bs s) := by
  have holen := h.append_olen_toNat hf
  exact
    { h with
      memory := store_wf h.memory _ _
      inside := fun cell hc => (mem_store hc).elim (h.inside cell) fun hc => hc.2.trans_le hf
      written := fun a ha => by
        rw [holen] at ha
        rw [append_obuf]
        by_cases hold : a < s.olen.toNat
        · rw [read_store_outside _ _ (Or.inl hold)]
          exact h.written a hold
        · obtain ⟨k, rfl⟩ := Nat.exists_eq_add_of_le (Nat.le_of_not_lt hold)
          have hk : k < bs.length := by omega
          rw [read_store_inside _ _ _ hk, List.getElem?_eq_getElem hk]
          rfl
      errEmpty := fun he => absurd he hs
      olenBound := holen.trans_le hf }

/-- A stream command keeps the invariant where its pseudocode does so in the state it runs in (R75). -/
theorem inv_inStream (h : Inv s) {want : StreamState} {run : State → State}
    (hrun : s.stat.state = want → Inv (run s)) : Inv (inStream want run s) := by
  obtain ⟨hs, he⟩ | ⟨-, -, he⟩ | ⟨-, -, he⟩ := inStream_cases want run s <;> rw [he]
  · exact hrun hs
  · exact h
  · exact inv_cmdError h nofun

/-! The encoder -/

theorem inv_encStart (h : Inv s) : Inv { beginStream .enc s with ebuf := 0, ebcnt := 0, ecnt := 0 } :=
  { inv_clear h with
    encCount := fun _ => rfl
    encLanes := rfl
    decCount := nofun
    errEmpty := nofun
    errRecord := iff_of_false nofun (not_not.2 rfl) }

/-- ECNT and EBCNT are counted together, and EBCNT starts again with every fourth byte (R122). -/
theorem inv_encodeByte (h : Inv s) (hs : s.stat.state = .enc) (b : Byte) : Inv (encodeByte b s) := by
  have hne : s.stat.state ≠ .err := hs ▸ nofun
  have hcount := h.encCount hs
  obtain ⟨-, he⟩ | ⟨hn, ⟨hk, he⟩ | ⟨hk, ⟨-, he⟩ | ⟨hf, he⟩⟩⟩ := encodeByte_cases b s
  · exact he ▸ inv_streamError h nofun
  all_goals have hecnt : (s.ecnt + 1).toNat = s.ecnt.toNat + 1 :=
    counter_add_toNat (k := 1) (by have := s.ecnt.isLt; simp only [maxCnt] at hn ⊢; omega)
  · have hebcnt : (BitVec.ofNat 2 (s.ebcnt.toNat + 1)).toNat = s.ebcnt.toNat + 1 := by
      rw [BitVec.toNat_ofNat, Nat.mod_eq_of_lt (by omega)]
    exact he ▸
      { h with
        encCount := fun _ => by simp only [hecnt, hebcnt]; omega
        encLanes := by
          simp only [hebcnt]
          exact or_byteLane_lanes (Nat.le_of_lt hk) h.encLanes b
        decCount := fun hd => absurd (hs.symm.trans hd) nofun }
  · exact he ▸ { inv_streamError h (e := .limit) nofun with encCount := nofun }
  · exact he ▸
      { inv_append h hne hf with
        encCount := fun _ => by
          show 0 = (s.ecnt + 1).toNat % 4
          omega
        encLanes := rfl }

/-- The group is emitted, and perhaps cut short, before the stream is done (R126). -/
theorem inv_encodeEnd (h : Inv s) (hs : s.stat.state = .enc) : Inv (encodeEnd s) := by
  have hne : s.stat.state ≠ .err := hs ▸ nofun
  obtain ⟨-, he⟩ | ⟨-, ⟨-, he⟩ | ⟨hf, he⟩⟩ := encodeEnd_cases s
  · exact he ▸ inv_finishStream h hne
  · exact he ▸ inv_streamError h nofun
  · have ha := inv_append h hne hf
    rw [he]
    split
    · exact { inv_finishStream (inv_truncate ha _) hne with encCount := nofun, encLanes := rfl }
    · exact { inv_finishStream ha hne with encCount := nofun, encLanes := rfl }

/-! The decoder -/

theorem inv_decStart (h : Inv s) : Inv { beginStream .dec s with acc := 0, dcnt := 0, lcnt := 0 } :=
  { inv_clear h with
    encCount := nofun
    decCount := fun _ => ⟨rfl, Nat.one_pos⟩
    errEmpty := nofun
    errRecord := iff_of_false nofun (not_not.2 rfl) }

/-- LCNT and DCNT are counted together, DCNT starts again with every fifth digit, and ACC holds DCNT digits (R142). -/
theorem inv_decodeDigit (h : Inv s) (hs : s.stat.state = .dec) {d : Nat} (hd : d < 85) : Inv (decodeDigit d s) := by
  have hne : s.stat.state ≠ .err := hs ▸ nofun
  obtain ⟨hcount, hacc⟩ := h.decCount hs
  obtain ⟨-, he⟩ | ⟨hn, ⟨hj, he⟩ | ⟨hj, ⟨-, he⟩ | ⟨g, -, ⟨-, he⟩ | ⟨hf, he⟩⟩⟩⟩ := decodeDigit_cases d s
  · exact he ▸ inv_streamError h nofun
  all_goals have hlcnt : (s.lcnt + 1).toNat = s.lcnt.toNat + 1 := counter_add_toNat hn
  · have hdcnt : (BitVec.ofNat 3 (s.dcnt.toNat + 1)).toNat = s.dcnt.toNat + 1 := by
      rw [BitVec.toNat_ofNat, Nat.mod_eq_of_lt (by omega)]
    have hfold := fold_lt hacc hd
    have hpow : 85 ^ (s.dcnt.toNat + 1) ≤ 85 ^ 4 := Nat.pow_le_pow_right (by decide) (by omega)
    have hfit : (BitVec.ofNat 33 (fold s.acc.toNat d)).toNat = fold s.acc.toNat d := by
      rw [BitVec.toNat_ofNat, Nat.mod_eq_of_lt ((hfold.trans_le hpow).trans (by decide))]
    exact he ▸
      { h with
        encCount := fun hd => absurd (hs.symm.trans hd) nofun
        decCount := fun _ => by
          simp only [hlcnt, hdcnt, hfit]
          exact ⟨by omega, hfold⟩ }
  · exact he ▸ { inv_streamError h (e := .overflow) nofun with decCount := nofun }
  · exact he ▸ { inv_streamError h (e := .limit) nofun with decCount := nofun }
  · exact he ▸
      { inv_append h hne (bs := be4 g) hf with
        decCount := fun _ => by
          show (s.lcnt + 1).toNat % 5 = 0 ∧ 0 < 85 ^ 0
          omega }

/-- An exception character counts for a whole quintet, between quintets (R142). -/
theorem inv_decodeException (h : Inv s) (hs : s.stat.state = .dec) (g : Group) : Inv (decodeException g s) := by
  have hne : s.stat.state ≠ .err := hs ▸ nofun
  obtain ⟨hcount, hacc⟩ := h.decCount hs
  obtain ⟨-, he⟩ | ⟨-, ⟨-, he⟩ | ⟨hn, ⟨-, he⟩ | ⟨hf, he⟩⟩⟩ := decodeException_cases g s
  · exact he ▸ inv_streamError h nofun
  · exact he ▸ inv_streamError h nofun
  · exact he ▸ inv_streamError h nofun
  · have hlcnt : (s.lcnt + 5).toNat = s.lcnt.toNat + 5 := counter_add_toNat hn
    exact he ▸
      { inv_append h hne (bs := be4 g) hf with
        decCount := fun _ => by
          show (s.lcnt + 5).toNat % 5 = s.dcnt.toNat ∧ s.acc.toNat < 85 ^ s.dcnt.toNat
          exact ⟨by omega, hacc⟩ }

theorem inv_decodeChar (h : Inv s) (hs : s.stat.state = .dec) (ch : Byte) : Inv (decodeChar ch s) := by
  unfold decodeChar
  split
  case h_1 d hd => exact inv_decodeDigit h hs (charMap_lt h.config hd)
  case h_2 =>
    split
    · exact inv_decodeException h hs _
    · exact inv_streamError h nofun

/-- The quintet is completed, and perhaps cut short, before the stream is done (R145). -/
theorem inv_decodeEnd (h : Inv s) (hs : s.stat.state = .dec) : Inv (decodeEnd s) := by
  have hne : s.stat.state ≠ .err := hs ▸ nofun
  obtain ⟨-, he⟩ | ⟨-, ⟨-, he⟩ | ⟨g, -, ⟨-, he⟩ | ⟨hf, he⟩⟩⟩ := decodeEnd_cases s
  · exact he ▸ inv_finishStream h hne
  · exact he ▸ inv_streamError h nofun
  · exact he ▸ inv_streamError h nofun
  · have ha := inv_append h hne (bs := be4 g) hf
    rw [he]
    split
    · exact { inv_finishStream (inv_truncate ha _) hne with decCount := nofun }
    · exact { inv_finishStream ha hne with decCount := nofun }

/-! The group codec and the guard -/

theorem inv_decodeQuintet (h : Inv s) (chs : List Byte) : Inv (decodeQuintet chs s) := by
  unfold decodeQuintet
  split
  · exact inv_groupResult h _
  · split
    · exact inv_groupResult h _
    · exact { h with }

/-- A byte exclusive-ored onto a byte is a byte (R169). -/
theorem xorAfter_lt {x : BitVec 32} (hx : x.toNat < 256) (b : Byte) : (xorAfter x b).toNat < 256 := by
  have hb := b.isLt
  rw [xorAfter, BitVec.toNat_xor, BitVec.toNat_setWidth, Nat.mod_eq_of_lt (by omega)]
  exact Nat.xor_lt_two_pow (n := 8) hx hb

/-! The commands, the actions and the step -/

/-- Every command keeps the invariant. -/
theorem inv_exec (h : Inv s) {i : Instr} {t : State} (ht : exec i s = .next t) : Inv t := by
  cases i <;> simp only [exec] at ht
  case nop => exact Host.Outcome.next.inj ht ▸ h
  case setCtrl pad =>
    unfold execSetCtrl at ht
    split at ht
    · exact Host.Outcome.next.inj ht ▸ inv_cmdError h nofun
    · exact Host.Outcome.next.inj ht ▸ { h with }
  case clrCmdErr => exact Host.Outcome.next.inj ht ▸ inv_clearCmdError h
  case grpEnc w => exact Host.Outcome.next.inj ht ▸ { h with }
  case grpDec c0 c1 c2 c3 c4 => exact Host.Outcome.next.inj ht ▸ inv_decodeQuintet h _
  case encStart => exact Host.Outcome.next.inj ht ▸ inv_encStart h
  case encByte b => exact Host.Outcome.next.inj ht ▸ inv_inStream h fun hs => inv_encodeByte h hs b
  case encEnd => exact Host.Outcome.next.inj ht ▸ inv_inStream h (inv_encodeEnd h)
  case decStart => exact Host.Outcome.next.inj ht ▸ inv_decStart h
  case decChar c => exact Host.Outcome.next.inj ht ▸ inv_inStream h fun hs => inv_decodeChar h hs c
  case decEnd => exact Host.Outcome.next.inj ht ▸ inv_inStream h (inv_decodeEnd h)
  case gClear => exact Host.Outcome.next.inj ht ▸ { h with xorByte := by simp }
  case gByte b =>
    unfold execGByte at ht
    split at ht
    · exact Host.Outcome.next.inj ht ▸ inv_cmdError h nofun
    · exact Host.Outcome.next.inj ht ▸ { h with xorByte := xorAfter_lt h.xorByte b }
  case gCmp sel w => exact Host.Outcome.next.inj ht ▸ { h with }

/-- The reset input gives the block its reset state, whose host side the invariant does not read (R220). -/
theorem inv_resetInput (h : Inv s) : Inv (resetInput s) := { inv_resetOf ⟨h.config, h.capacity⟩ with }

/-- Every action keeps the invariant. -/
theorem inv_perform (h : Inv s) {a : HostAction} {t : State} (ht : perform a s = .next t) : Inv t := by
  obtain ⟨cmd, c, -, hd, rfl⟩ | ⟨cmd, i, -, -, he⟩ | ⟨i, -, rfl⟩ | ⟨i, v, -, rfl⟩ | ⟨i, -, rfl⟩ | ⟨-, rfl⟩ :=
    perform_next_cases ht
  · exact inv_cmdError h (by rcases decode_error hd with rfl | rfl | rfl <;> nofun)
  · exact inv_exec h he
  · exact { h with }
  · exact { h with }
  · exact { h with }
  · exact inv_resetInput h

/-- Settles O39: a step holds the state or performs one action, and the actions not yet performed are not read by the invariant. -/
theorem stepKeepsTheInvariant : Obligations.StepKeepsTheInvariant := by
  intro s t h ht
  obtain ⟨-, ⟨-, rfl⟩ | ⟨a, rest, -, hp⟩⟩ := step_next_cases ht
  · exact h
  · exact inv_perform (s := { s with pending := rest }) { h with } hp

end Sys2Proof.Machine
end

section
/-! SUPPORT. A run of ENC_BYTE commands on a partial group (10_state R24; 20_memory R54), command by command. -/

namespace Sys2Proof

@[simp] theorem decode_encStart : decode (encode .encStart) = .ok .encStart := by decide

@[simp] theorem decode_encByte (b : Byte) : decode (encode (.encByte b)) = .ok (.encByte b) := by
  have hopc : (cmdOpc (encode (.encByte b))).toNat = 0x21 := congrArg BitVec.toNat (cmdOpc_cmd64 0 b 0x21)
  simp only [decode, hopc]
  exact readFields_cmd64 nofun fun _ => rfl

namespace Machine

/-- A step on an issued word that decodes runs the command, the word being taken from the port (R54, R74). -/
theorem step_issue {s : State} {cmd : Cmd} {rest : List HostAction} {i : Instr} (hc : IsInstance s.cfg)
    (hp : s.pending = .issue cmd :: rest) (hd : decode cmd = .ok i) : step s = exec i { s with pending := rest } := by
  rw [step_eq_takeAction hc.1 hc.2]
  simp only [takeAction, hp, perform, issue, hd]

/-- A run is a step and the run from the state it answers. -/
theorem stepN_succ {s s' : State} (h : step s = .next s') (n : Nat) : stepN (n + 1) s = stepN n s' := by
  rw [stepN, h]

/-- The encoder of an allowed configuration holds exactly the bytes `held`: they are its first since ENC_START and fill no group yet. -/
structure HoldsPartialGroup (held : List Byte) (s : State) : Prop where
  cfg : IsInstance s.cfg
  state : s.stat.state = .enc
  ecnt : s.ecnt.toNat = held.length
  ebcnt : s.ebcnt.toNat = held.length
  lanes : ∀ (i : Nat) (b : Byte), held[i]? = some b → s.ebuf.toNat / 2 ^ (24 - 8 * i) % 2 ^ 8 = b.toNat
  free : s.ebuf.toNat % 2 ^ (32 - 8 * held.length) = 0

/-- ENC_START leaves an empty group, from any state (R121). -/
theorem holdsPartialGroup_encStart {s : State} (hc : IsInstance s.cfg) :
    HoldsPartialGroup [] { beginStream .enc s with ebuf := 0, ebcnt := 0, ecnt := 0 } where
  cfg := hc
  state := rfl
  ecnt := rfl
  ebcnt := rfl
  lanes := nofun
  free := rfl

/-- One of the first three bytes is counted and put on the next lane, and nothing else changes (R122). -/
theorem encodeByte_partialGroup {held : List Byte} {s : State} (h : HoldsPartialGroup held s) (hl : held.length < 3)
    (b : Byte) :
    encodeByte b s =
      { s with
        ecnt := s.ecnt + 1
        ebuf := s.ebuf ||| byteLane held.length b
        ebcnt := BitVec.ofNat 2 (held.length + 1) } := by
  have hn : s.ecnt.toNat ≠ maxCnt := by
    rw [h.ecnt, maxCnt]
    omega
  obtain ⟨hm, -⟩ | ⟨-, ⟨-, he⟩ | ⟨hk, -⟩⟩ := encodeByte_cases b s
  · exact absurd hm hn
  · rw [he, h.ebcnt]
  · have := h.ebcnt
    omega

/-- One of the first three bytes joins those held (R122, R24). -/
theorem holdsPartialGroup_encodeByte {held : List Byte} {s : State} (h : HoldsPartialGroup held s) (hl : held.length < 3)
    (b : Byte) : HoldsPartialGroup (held ++ [b]) (encodeByte b s) := by
  have hecnt : (s.ecnt + 1).toNat = s.ecnt.toNat + 1 :=
    counter_add_toNat (k := 1) (by rw [h.ecnt, maxCnt]; omega)
  rw [encodeByte_partialGroup h hl]
  constructor
  case cfg => exact h.cfg
  case state => exact h.state
  case ecnt => rw [List.length_append, hecnt, h.ecnt, List.length_singleton]
  case ebcnt =>
    rw [BitVec.toNat_ofNat, List.length_append, List.length_singleton, Nat.mod_eq_of_lt (by omega)]
  case lanes =>
    intro i c hi
    obtain hlt | rfl := Nat.lt_or_eq_of_le (Nat.lt_succ_iff.1 (by simpa using (List.getElem?_eq_some_iff.1 hi).1))
    · rw [List.getElem?_append_left hlt] at hi
      exact (lane_or_byteLane_before hl.le hlt h.free b).trans (h.lanes i c hi)
    · obtain rfl : b = c := by simpa using hi
      exact lane_or_byteLane_same hl.le h.free b
  case free =>
    rw [List.length_append, List.length_singleton]
    exact or_byteLane_lanes hl.le h.free b

/-- In state ENC the step of an issued ENC_BYTE is its pseudocode (R75). -/
theorem step_encByte {s : State} {b : Byte} {rest : List HostAction} (hc : IsInstance s.cfg) (hs : s.stat.state = .enc)
    (hp : s.pending = .issue (encode (.encByte b)) :: rest) : step s = .next (encodeByte b { s with pending := rest }) := by
  rw [step_issue hc hp (decode_encByte b)]
  exact congrArg _ (if_pos hs)

/-- A run of ENC_BYTE commands that fills no group adds its bytes to those held. -/
theorem stepN_encBytes (bs held : List Byte) (s : State) {rest : List HostAction} (h : HoldsPartialGroup held s)
    (hl : held.length + bs.length ≤ 3) (hp : s.pending = issueAll (bs.map .encByte) ++ rest) :
    ∃ t, stepN bs.length s = .next t ∧ t.pending = rest ∧ HoldsPartialGroup (held ++ bs) t := by
  induction bs generalizing held s with
  | nil => exact ⟨s, rfl, hp, by rwa [List.append_nil]⟩
  | cons b bs ih =>
    rw [List.length_cons] at hl
    have hport : HoldsPartialGroup held { s with pending := issueAll (bs.map .encByte) ++ rest } := { h with }
    obtain ⟨t, ht, hrest, hheld⟩ := ih (held ++ [b]) _ (holdsPartialGroup_encodeByte hport (by omega) b)
      (by rw [List.length_append, List.length_singleton]; omega)
      (by rw [encodeByte_partialGroup hport (by omega)])
    refine ⟨t, ?_, hrest, by rwa [List.append_cons]⟩
    rw [List.length_cons, stepN_succ (step_encByte h.cfg h.state hp)]
    exact ht

/-- Settles O48: ENC_START leaves an empty group, and up to three bytes are then added to it one by one. -/
theorem ebufHoldsThePartialGroup : Obligations.EbufHoldsThePartialGroup := by
  intro bs s rest hc hlen hp
  have hstart := step_issue hc hp decode_encStart
  obtain ⟨t, ht, hrest, hheld⟩ := stepN_encBytes bs [] _
    (holdsPartialGroup_encStart (s := { s with pending := issueAll (bs.map .encByte) ++ rest }) hc) (by simpa using hlen) rfl
  exact ⟨t, (stepN_succ hstart _).trans ht, hrest, hheld.ebcnt, hheld.lanes, hheld.free⟩

end Machine

end Sys2Proof
end

section
/-! SUPPORT. The host's ports (20_memory R52 to R54): a step performs the oldest pending action, and what each read answers. -/

namespace Sys2Proof.Machine

open Sys2Proof

variable {s : State} {rest : List HostAction}

/-- On a block of an allowed configuration a step performs the oldest pending action (R54). -/
theorem step_pending {a : HostAction} (hc : IsInstance s.cfg) (hp : s.pending = a :: rest) :
    step s = perform a { s with pending := rest } := by
  rw [step_eq_takeAction hc.1 hc.2]
  simp only [takeAction, hp]

/-- Settles O7: it is `step_issue`, said of every command. -/
theorem stepRunsTheDecodedCommand : Obligations.StepRunsTheDecodedCommand :=
  fun _ _ _ _ => step_issue

/-- CTRL is PAD_FINAL in bit 0 (R23). -/
theorem ctrlWord_setWidth_toNat (pad : Bool) : ((ctrlWord pad).setWidth 64).toNat = if pad then 1 else 0 := by
  cases pad <;> rfl

/-- The host's register map ends at index 0x0F (R52). -/
theorem regRead_of_le {i : BitVec 8} (hi : 0x10 ≤ i.toNat) : regRead i s = 0 := by
  unfold regRead
  split
  case h_17 => rfl
  all_goals omega

/-- Settles O14: the reply is `regRead`, which at each index of the map is one register, zero-extended to 64 bits. -/
theorem registerReadPort : Obligations.RegisterReadPort := by
  intro s i rest hc hp
  refine ⟨regRead i s, step_pending hc hp, ?stat, ?ctrl, ?olen, ?ebuf, ?ebcnt, ?ecnt, ?acc, ?dcnt, ?lcnt, ?qchr, ?qdig,
    ?gw, ?gN, ?gXor, ?gSum, ?gRot, regRead_of_le⟩
  case ctrl =>
    rintro rfl
    exact ctrlWord_setWidth_toNat s.padFinal
  all_goals
    rintro rfl
    exact BitVec.toNat_setWidth_of_le (by decide)

/-- Below OLEN a byte that has been written is returned (R53). -/
theorem readBuf_of_read {i : BitVec 32} {v : Byte} (hi : i.toNat < s.olen.toNat) (hcap : i.toNat < s.cfg.obufCap)
    (hv : s.obuf.read i.toNat = some v) : readBuf i s = .next { s with reply := some (.buf v) } := by
  simp only [readBuf, if_pos hi, if_pos hcap, hv]

/-- From OLEN on an unspecified byte is returned (R53). -/
theorem readBuf_of_olen_le {i : BitVec 32} (hi : s.olen.toNat ≤ i.toNat) : readBuf i s = .next (replyUnspecified s) :=
  if_neg (Nat.not_lt.2 hi)

/-- R50; log entry 13. -/
theorem readBuf_of_obufCap_le {i : BitVec 32} (hi : i.toNat < s.olen.toNat) (hcap : s.cfg.obufCap ≤ i.toNat) :
    readBuf i s = .fault (.bufferIndexAbsent i.toNat) := by
  rw [readBuf, if_pos hi, if_neg (Nat.not_lt.2 hcap)]

/-- Settles O15: OLEN decides between the byte OBUF holds and the next free one. -/
theorem bufferReadPort : Obligations.BufferReadPort := by
  intro s i rest hc hp
  have hstep : step s = readBuf i { s with pending := rest } := step_pending hc hp
  constructor
  · intro v hi hcap hv
    exact hstep.trans (readBuf_of_read hi hcap hv)
  · intro hi
    exact ⟨freeByte s.draws, hstep.trans (readBuf_of_olen_le hi)⟩

/-- Settles O16: the capacity is checked before OBUF is read. -/
theorem bufferIndexObufLacksFaults : Obligations.BufferIndexObufLacksFaults := by
  intro s i rest hc hp hi hcap
  exact (step_pending hc hp).trans (readBuf_of_obufCap_le hi hcap)

end Sys2Proof.Machine
end

section
/-! SUPPORT. What each unit of the block writes (20_memory R67): the group codec, the guard and the control commands as updates of
their own fields, and a stream command as an update of the stream part of the state, which no other part of it enters. -/

namespace Sys2Proof.Machine

open Sys2Proof

variable {s t : State}

/-! The group codec, the guard and the control commands -/

/-- All that a group command can do (R101, R104). -/
theorem exec_group_writes {i : Instr} (hi : unitOf i = .group) (ht : exec i s = .next t) :
    ∃ qchr qdig gw e, t = { s with qchr := qchr, qdig := qdig, gw := gw, stat := { s.stat with gerr := e } } := by
  cases i <;> cases hi
  case grpEnc w => exact ⟨_, _, _, _, (Host.Outcome.next.inj ht).symm⟩
  case grpDec c0 c1 c2 c3 c4 =>
    obtain rfl := Host.Outcome.next.inj ht
    unfold decodeQuintet
    split
    · exact ⟨_, _, _, _, rfl⟩
    · split
      · exact ⟨_, _, _, _, rfl⟩
      · exact ⟨_, _, _, _, rfl⟩

/-- All that a guard command can do (R160, R161, R163, R164). -/
theorem exec_guard_writes {i : Instr} (hi : unitOf i = .guard) (ht : exec i s = .next t) :
    (∃ n x m r g,
      t = { s with gN := n, gXor := x, gSum := m, gRot := r, stat := { s.stat with gmatch := g } }) ∨
      t = cmdError .limit s := by
  cases i <;> cases hi
  case gClear => exact Or.inl ⟨_, _, _, _, _, (Host.Outcome.next.inj ht).symm⟩
  case gByte b =>
    simp only [exec, execGByte] at ht
    split at ht
    · exact Or.inr (Host.Outcome.next.inj ht).symm
    · exact Or.inl ⟨_, _, _, _, _, (Host.Outcome.next.inj ht).symm⟩
  case gCmp sel w => exact Or.inl ⟨_, _, _, _, _, (Host.Outcome.next.inj ht).symm⟩

/-- All that a control command can do, a rejection among it (R180 to R182, R75). -/
theorem exec_control_writes {i : Instr} (hi : unitOf i = .control) (ht : exec i s = .next t) :
    ∃ pad e c, t = { s with padFinal := pad, stat := { s.stat with cmdErr := e, cmdCause := c } } := by
  cases i <;> cases hi
  case nop => exact ⟨_, _, _, (Host.Outcome.next.inj ht).symm⟩
  case setCtrl pad =>
    simp only [exec, execSetCtrl] at ht
    split at ht
    · exact ⟨_, _, _, (Host.Outcome.next.inj ht).symm⟩
    · exact ⟨_, _, _, (Host.Outcome.next.inj ht).symm⟩
  case clrCmdErr => exact ⟨_, _, _, (Host.Outcome.next.inj ht).symm⟩

theorem frame_group_writes (s : State) (qchr : BitVec 40) (qdig : BitVec 35) (gw : BitVec 32) (e : GroupErr) :
    Frame [0x09, 0x0A, 0x0B] gerrBits s
      { s with qchr := qchr, qdig := qdig, gw := gw, stat := { s.stat with gerr := e } } where
  regs := by apply regs_kept <;> simp
  stat := word_keeps_gerr s.stat e
  cfg := rfl
  pending := rfl
  reply := rfl
  draws := rfl

theorem frame_guard_writes (s : State) (n : Counter) (x m r : BitVec 32) (g : Bool) :
    Frame [0x0C, 0x0D, 0x0E, 0x0F] gmatchBit s
      { s with gN := n, gXor := x, gSum := m, gRot := r, stat := { s.stat with gmatch := g } } where
  regs := by apply regs_kept <;> simp
  stat := word_keeps_gmatch s.stat g
  cfg := rfl
  pending := rfl
  reply := rfl
  draws := rfl

theorem frame_control_writes (s : State) (pad e : Bool) (c : CmdCause) :
    Frame [0x01] cmdBits s
      { s with padFinal := pad, stat := { s.stat with cmdErr := e, cmdCause := c } } where
  regs := by apply regs_kept <;> simp
  stat := word_keeps_cmd s.stat e c
  cfg := rfl
  pending := rfl
  reply := rfl
  draws := rfl

/-! The stream part of a state -/

/-- `u` with the stream part of `s`: STATE, ERR, the stream registers and OBUF are those of `s`, and everything else is that of `u`.
Reducible, so that what a command reads of it is seen to be a field of `s` or of `u`. -/
@[reducible] def State.withStreamOf (u s : State) : State :=
  { u with
    stat := { u.stat with state := s.stat.state, err := s.stat.err }
    olen := s.olen
    ebuf := s.ebuf
    ebcnt := s.ebcnt
    ecnt := s.ecnt
    acc := s.acc
    dcnt := s.dcnt
    lcnt := s.lcnt
    obuf := s.obuf }

theorem frame_withStreamOf (s t : State) :
    Frame [0x02, 0x03, 0x04, 0x05, 0x06, 0x07, 0x08] streamBits s (s.withStreamOf t) where
  regs := by apply regs_kept <;> simp
  stat := word_keeps_stream s.stat t.stat.state t.stat.err
  cfg := rfl
  pending := rfl
  reply := rfl
  draws := rfl

/-- Two states that a stream operation cannot tell apart have one stream part (R67). -/
theorem StreamAgree.withStreamOf_eq (h : StreamAgree s t) : t.withStreamOf s = t := by
  simp only [State.withStreamOf, h.state, h.err, h.olen, h.ebuf, h.ebcnt, h.ecnt, h.acc, h.dcnt, h.lcnt, h.obuf]

theorem streamAgree_withStreamOf (hc : s.cfg = t.cfg) (hp : s.padFinal = t.padFinal) :
    StreamAgree s (t.withStreamOf s) :=
  ⟨hc, hp, rfl, rfl, rfl, rfl, rfl, rfl, rfl, rfl, rfl, rfl⟩

/-- `f` works on the stream part alone: of the rest of the state it reads only the configuration and PAD_FINAL, and writes nothing. -/
def ConfinedToStream (f : State → State) : Prop :=
  ∀ s u : State, s.cfg = u.cfg → s.padFinal = u.padFinal → f (u.withStreamOf s) = u.withStreamOf (f s)

namespace ConfinedToStream

variable {f : State → State}

/-- What a confined update does to a state, it does to its stream part. -/
theorem eq_withStreamOf (hf : ConfinedToStream f) (s : State) : f s = s.withStreamOf (f s) :=
  hf s s rfl rfl

theorem frame (hf : ConfinedToStream f) (s : State) :
    Frame [0x02, 0x03, 0x04, 0x05, 0x06, 0x07, 0x08] streamBits s (f s) :=
  hf.eq_withStreamOf s ▸ frame_withStreamOf s (f s)

theorem padFinal_eq (hf : ConfinedToStream f) (s : State) : (f s).padFinal = s.padFinal := by
  rw [hf.eq_withStreamOf s]

/-- A confined update takes states that agree to states that agree. -/
theorem streamAgree (hf : ConfinedToStream f) (h : StreamAgree s t) : StreamAgree (f s) (f t) := by
  have ht : f t = t.withStreamOf (f s) := by
    rw [← hf s t h.cfg h.padFinal, h.withStreamOf_eq]
  rw [ht]
  exact streamAgree_withStreamOf ((hf.frame s).cfg.trans h.cfg) ((hf.padFinal_eq s).trans h.padFinal)

end ConfinedToStream

/-! The stream commands. Where two states have one stream part, configuration and PAD_FINAL, a command tests the same conditions
of both and takes the same branch, and each branch writes fields of the stream part. -/

theorem confined_encStart : ConfinedToStream fun s => { beginStream .enc s with ebuf := 0, ebcnt := 0, ecnt := 0 } :=
  fun _ _ _ _ => rfl

theorem confined_encodeByte (b : Byte) : ConfinedToStream (encodeByte b) := by
  intro s u hc _
  simp only [encodeByte, emitGroup, appendOrLimit, hc]
  split_ifs <;> rfl

theorem confined_encodeEnd : ConfinedToStream encodeEnd := by
  intro s u hc hp
  simp only [encodeEnd, emitGroup, appendOrLimit, hc, hp]
  split_ifs <;> rfl

theorem confined_decStart : ConfinedToStream fun s => { beginStream .dec s with acc := 0, dcnt := 0, lcnt := 0 } :=
  fun _ _ _ _ => rfl

theorem confined_decodeDigit (d : Nat) : ConfinedToStream (decodeDigit d) := by
  intro s u hc _
  simp only [decodeDigit, appendOrLimit, hc]
  cases decGroup (fold s.acc.toNat d) with
  | _ =>
    dsimp only
    split_ifs <;> rfl

theorem confined_decodeException (g : Group) : ConfinedToStream (decodeException g) := by
  intro s u hc _
  simp only [decodeException, appendOrLimit, hc]
  split_ifs <;> rfl

theorem confined_decodeChar (ch : Byte) : ConfinedToStream (decodeChar ch) := by
  intro s u hc hp
  simp only [decodeChar, hc]
  cases u.cfg.charMap ch with
  | some d => exact confined_decodeDigit d s u hc hp
  | none =>
    cases u.cfg.excKey ch with
    | some g => exact confined_decodeException g s u hc hp
    | none => rfl

theorem confined_decodeEnd : ConfinedToStream decodeEnd := by
  intro s u hc hp
  simp only [decodeEnd, appendOrLimit, hc, hp]
  cases decGroup (foldPad (5 - s.lcnt.toNat % 5) s.acc.toNat) with
  | _ =>
    dsimp only
    split_ifs <;> rfl

/-- A stream command is a confined update, run in every state or under the check for one state (R75). -/
theorem exec_stream_confined {i : Instr} (hi : unitOf i = .stream) :
    ∃ f, ConfinedToStream f ∧
      ((∀ s, exec i s = .next (f s)) ∨ ∃ want, ∀ s, exec i s = .next (inStream want f s)) := by
  cases i <;> cases hi
  case encStart => exact ⟨_, confined_encStart, Or.inl fun _ => rfl⟩
  case encByte b => exact ⟨_, confined_encodeByte b, Or.inr ⟨.enc, fun _ => rfl⟩⟩
  case encEnd => exact ⟨_, confined_encodeEnd, Or.inr ⟨.enc, fun _ => rfl⟩⟩
  case decStart => exact ⟨_, confined_decStart, Or.inl fun _ => rfl⟩
  case decChar c => exact ⟨_, confined_decodeChar c, Or.inr ⟨.dec, fun _ => rfl⟩⟩
  case decEnd => exact ⟨_, confined_decodeEnd, Or.inr ⟨.dec, fun _ => rfl⟩⟩

/-- All that a stream command can do, seen from outside the stream part: stay inside it, or be rejected (R67, R75). -/
theorem exec_stream_frame {i : Instr} (hi : unitOf i = .stream) (ht : exec i s = .next t) :
    Frame [0x02, 0x03, 0x04, 0x05, 0x06, 0x07, 0x08] streamBits s t ∨ ∃ c, Rejected c s t := by
  obtain ⟨f, hf, he | ⟨want, he⟩⟩ := exec_stream_confined hi
  · obtain rfl := Host.Outcome.next.inj ((he s).symm.trans ht)
    exact Or.inl (hf.frame s)
  · obtain rfl := Host.Outcome.next.inj ((he s).symm.trans ht)
    obtain ⟨-, hr⟩ | ⟨-, -, hr⟩ | ⟨-, -, hr⟩ := inStream_cases want f s <;> rw [hr]
    · exact Or.inl (hf.frame s)
    · exact Or.inl (frame_withStreamOf s s)
    · exact Or.inr ⟨_, cmdError_rejected _ s⟩

/-- Settles O42: each unit's commands are updates of the unit's own fields. -/
theorem unitsWriteOnlyTheirRegisters : Obligations.UnitsWriteOnlyTheirRegisters := by
  intro i s t ht
  refine ⟨fun hi => ?group, fun hi => ?guard, fun hi => exec_stream_frame hi ht, fun hi => ?control⟩
  case group =>
    obtain ⟨qchr, qdig, gw, e, rfl⟩ := exec_group_writes hi ht
    exact ⟨frame_group_writes s qchr qdig gw e, fun _ => rfl⟩
  case guard =>
    obtain ⟨n, x, m, r, g, rfl⟩ | rfl := exec_guard_writes hi ht
    · exact Or.inl ⟨frame_guard_writes s n x m r g, fun _ => rfl⟩
    · exact Or.inr ⟨_, cmdError_rejected _ s⟩
  case control =>
    obtain ⟨pad, e, c, rfl⟩ := exec_control_writes hi ht
    exact ⟨frame_control_writes s pad e c, fun _ => rfl⟩

/-- What a group or guard command writes is no part of what a stream operation reads (R67). -/
theorem streamAgree_of_exec {i : Instr} (hi : unitOf i = .group ∨ unitOf i = .guard) (ht : exec i s = .next t) :
    StreamAgree s t := by
  obtain hi | hi := hi
  · obtain ⟨qchr, qdig, gw, e, rfl⟩ := exec_group_writes hi ht
    constructor <;> rfl
  · obtain ⟨n, x, m, r, g, rfl⟩ | rfl := exec_guard_writes hi ht
    · constructor <;> rfl
    · constructor <;> rfl

/-- The state check reads only STATE, on which states that agree are the same (R75). -/
theorem streamAgree_inStream {f : State → State} (hf : ConfinedToStream f) (want : StreamState) (h : StreamAgree s t) :
    StreamAgree (inStream want f s) (inStream want f t) := by
  unfold inStream
  rw [← h.state]
  split
  · exact hf.streamAgree h
  · split
    · exact h
    · exact { h with }

/-- A stream command answers a next state on states that agree, and these agree (R67). -/
theorem exec_streamAgree {i : Instr} (hi : unitOf i = .stream) (h : StreamAgree s t) :
    ∃ s' t', exec i s = .next s' ∧ exec i t = .next t' ∧ StreamAgree s' t' := by
  obtain ⟨f, hf, he | ⟨want, he⟩⟩ := exec_stream_confined hi
  · exact ⟨_, _, he s, he t, hf.streamAgree h⟩
  · exact ⟨_, _, he s, he t, streamAgree_inStream hf want h⟩

/-- Settles O43: the group and guard commands write outside the stream part, and a stream command is confined to it. -/
theorem interleavingDoesNotDisturbAStream : Obligations.InterleavingDoesNotDisturbAStream :=
  ⟨fun _ _ _ => streamAgree_of_exec, fun _ _ _ => exec_streamAgree⟩

end Sys2Proof.Machine
end

section
/-! SUPPORT. The encoder against the decoder (30_encoding R71, R79): the operands a command's fields carry, and decoding an encoded
word. -/

namespace Sys2Proof

open Machine

/-- GRP_DEC's four characters joined in W are read back from it (R71). -/
theorem buildGrpDec_append (c0 c1 c2 c3 c4 : Byte) : buildGrpDec c0 (c1 ++ c2 ++ c3 ++ c4) = .grpDec c0 c1 c2 c3 c4 := by
  have h := be4_beGroup c1 c2 c3 c4
  simp only [be4, beGroup, List.cons.injEq, and_true] at h
  obtain ⟨h1, h2, h3, h4⟩ := h
  simp only [buildGrpDec, h1, h2, h3, h4]

/-- The characters GRP_DEC reads from B and W are encoded as that B and W (R71, R79). -/
theorem encode_buildGrpDec (b : Byte) (w : BitVec 32) : encode (buildGrpDec b w) = cmd64 w b 0x11 :=
  congrArg (cmd64 · b 0x11) (beGroup_of_bytes w)

theorem buildGCmp_guardSelCode (sel : GuardSel) (w : BitVec 32) : buildGCmp (guardSelCode sel) w = .ok (.gCmp sel w) := by
  cases sel <;> rfl

/-- The codes 0 to 3 are those of the four selectors (R71). -/
theorem exists_guardSelCode {b : Byte} (h : b.toNat ≤ 3) : ∃ sel, guardSelCode sel = b := by
  obtain h | h | h | h : b.toNat = 0 ∨ b.toNat = 1 ∨ b.toNat = 2 ∨ b.toNat = 3 := by omega
  · exact ⟨.n, (BitVec.eq_of_toNat_eq h).symm⟩
  · exact ⟨.xor, (BitVec.eq_of_toNat_eq h).symm⟩
  · exact ⟨.sum, (BitVec.eq_of_toNat_eq h).symm⟩
  · exact ⟨.rot, (BitVec.eq_of_toNat_eq h).symm⟩

theorem buildGCmp_of_lt {b : Byte} (h : 3 < b.toNat) (w : BitVec 32) : buildGCmp b w = .error .badOperand := by
  unfold buildGCmp
  split
  case h_5 => rfl
  all_goals omega

/-- B[7:1] of SET_CTRL as a number (R181). -/
theorem setCtrlHigh_eq_zero_iff (b : Byte) : b.extractLsb' 1 7 = 0#7 ↔ b.toNat / 2 = 0 := by
  have hb := b.isLt
  rw [← BitVec.toNat_inj, field_toNat, BitVec.toNat_ofNat]
  omega

/-- A byte of which only bit 0 is in use is that bit (R181). -/
theorem ite_getLsbD_eq_of_high_eq_zero {b : Byte} (h : b.extractLsb' 1 7 = 0#7) : (if b.getLsbD 0 then 1 else 0) = b := by
  rw [setCtrlHigh_eq_zero_iff] at h
  obtain h | h : b.toNat = 0 ∨ b.toNat = 1 := by omega
  · obtain rfl : b = 0#8 := BitVec.eq_of_toNat_eq h
    rfl
  · obtain rfl : b = 1#8 := BitVec.eq_of_toNat_eq h
    rfl

/-- The encoder sets RSV and the fields a command does not use to 0, so its word passes the shared checks, and the fields
it does use are the operands. -/
theorem decode_encode (i : Instr) : decode (encode i) = .ok i := by
  cases i with
  | setCtrl pad => cases pad <;> decide
  | grpDec c0 c1 c2 c3 c4 =>
    calc decode (encode (.grpDec c0 c1 c2 c3 c4)) = .ok (buildGrpDec c0 (c1 ++ c2 ++ c3 ++ c4)) := by
          simp only [encode, decode, cmdOpc_cmd64]
          exact readFields_cmd64 nofun nofun
      _ = .ok (.grpDec c0 c1 c2 c3 c4) := by rw [buildGrpDec_append]
  | gCmp sel w =>
    calc decode (encode (.gCmp sel w)) = buildGCmp (guardSelCode sel) w := by
          simp only [encode, decode, cmdOpc_cmd64]
          exact readFields_cmd64 nofun nofun
      _ = .ok (.gCmp sel w) := buildGCmp_guardSelCode sel w
  | _ =>
    simp only [encode, decode, cmdOpc_cmd64]
    exact readFields_cmd64 (by simp) (by simp)

/-- Settles O1: `decode_encode` goes through the commands. -/
theorem decodeOfEncodeIsTheCommand : Obligations.DecodeOfEncodeIsTheCommand := decode_encode

end Sys2Proof
end

section
/-! SUPPORT. The checks of 30_encoding R74, in their order, as a relation between a word and the decoder's answer. -/

namespace Sys2Proof

/-- The column OPC of R72. -/
def assignedOpcodes : List Nat := [0x00, 0x01, 0x02, 0x10, 0x11, 0x20, 0x21, 0x22, 0x30, 0x31, 0x32, 0x40, 0x41, 0x42]

/-- The opcodes of the commands that use B (R72). -/
def opcodesUsingB : List Nat := [0x01, 0x11, 0x21, 0x31, 0x41, 0x42]

/-- The opcodes of the commands that use W (R72). -/
def opcodesUsingW : List Nat := [0x10, 0x11, 0x42]

/-- RSV or a field that is not used is not 0: the part of the check for RESERVED_FIELD that all rows share (R74). -/
def UnusedFieldSet (usesB usesW : Bool) (cmd : Cmd) : Prop :=
  cmdRsv cmd ≠ 0#16 ∨ (usesB = false ∧ cmdB cmd ≠ 0#8) ∨ (usesW = false ∧ cmdW cmd ≠ 0#32)

/-- The check for RESERVED_FIELD, with the column "uses" of R72 and B[7:1] of SET_CTRL (R74). -/
def FieldBad (cmd : Cmd) : Prop :=
  UnusedFieldSet (decide ((cmdOpc cmd).toNat ∈ opcodesUsingB)) (decide ((cmdOpc cmd).toNat ∈ opcodesUsingW)) cmd ∨
    ((cmdOpc cmd).toNat = 0x01 ∧ (cmdB cmd).extractLsb' 1 7 ≠ 0#7)

/-- The check for BAD_OPERAND: G_CMP with a selector above 3 (R74). -/
def OperandBad (cmd : Cmd) : Prop := (cmdOpc cmd).toNat = 0x42 ∧ 3 < (cmdB cmd).toNat

/-- The answers of R74 to a word: the first check it fails, or the command whose encoding it is. -/
inductive CheckedInOrder (cmd : Cmd) : Except CmdCause Instr → Prop
  | reservedOpcode : (cmdOpc cmd).toNat ∉ assignedOpcodes → CheckedInOrder cmd (.error .reservedOpcode)
  | reservedField : (cmdOpc cmd).toNat ∈ assignedOpcodes → FieldBad cmd → CheckedInOrder cmd (.error .reservedField)
  | badOperand : (cmdOpc cmd).toNat ∈ assignedOpcodes → ¬FieldBad cmd → OperandBad cmd →
      CheckedInOrder cmd (.error .badOperand)
  | ok {i : Instr} : (cmdOpc cmd).toNat ∈ assignedOpcodes → ¬FieldBad cmd → ¬OperandBad cmd → encode i = cmd →
      CheckedInOrder cmd (.ok i)

/-- The flags of a row of the decoder are those of R72 for the opcode `k`. -/
structure RowFlags (k : Nat) (usesB usesW : Bool) : Prop where
  assigned : k ∈ assignedOpcodes
  usesB_eq : usesB = decide (k ∈ opcodesUsingB)
  usesW_eq : usesW = decide (k ∈ opcodesUsingW)

section

variable {cmd : Cmd} {k : Nat} {usesB usesW : Bool}

theorem fieldBad_iff (hopc : (cmdOpc cmd).toNat = k) (hrow : RowFlags k usesB usesW) :
    FieldBad cmd ↔ UnusedFieldSet usesB usesW cmd ∨ (k = 0x01 ∧ (cmdB cmd).extractLsb' 1 7 ≠ 0#7) := by
  obtain ⟨-, rfl, rfl⟩ := hrow
  rw [FieldBad, hopc]

/-- The shared checks reject with one cause (R74). -/
theorem readFields_of_unusedFieldSet (build : Byte → BitVec 32 → Except CmdCause Instr) (h : UnusedFieldSet usesB usesW cmd) :
    readFields cmd usesB usesW build = .error .reservedField := by
  unfold readFields
  split_ifs with hr hb hw
  · rfl
  · rfl
  · rfl
  · exact absurd h (not_or.2 ⟨hr, not_or.2 ⟨hb, hw⟩⟩)

theorem readFields_of_not_unusedFieldSet (build : Byte → BitVec 32 → Except CmdCause Instr)
    (h : ¬UnusedFieldSet usesB usesW cmd) : readFields cmd usesB usesW build = build (cmdB cmd) (cmdW cmd) := by
  obtain ⟨hr, h⟩ := not_or.1 h
  obtain ⟨hb, hw⟩ := not_or.1 h
  rw [readFields, if_neg hr, if_neg hb, if_neg hw]

/-- A word whose reserved and unused fields are 0 is built from its opcode and the fields in use. -/
theorem cmd64_of_not_unusedFieldSet (hopc : (cmdOpc cmd).toNat = k) (h : ¬UnusedFieldSet usesB usesW cmd) :
    cmd64 (if usesW then cmdW cmd else 0) (if usesB then cmdB cmd else 0) (BitVec.ofNat 8 k) = cmd := by
  simp only [UnusedFieldSet, not_or, not_and, not_not] at h
  obtain ⟨hr, hb, hw⟩ := h
  have hB : (if usesB then cmdB cmd else 0) = cmdB cmd := by
    cases usesB
    · exact (hb rfl).symm
    · rfl
  have hW : (if usesW then cmdW cmd else 0) = cmdW cmd := by
    cases usesW
    · exact (hw rfl).symm
    · rfl
  rw [hB, hW, ← hopc, BitVec.ofNat_toNat, BitVec.setWidth_eq]
  exact (cmd_eq_cmd64 cmd hr).symm

/-- A row is checked in order when its builder makes the remaining checks on a word that passes the shared ones. -/
theorem checkedInOrder_readFields {build : Byte → BitVec 32 → Except CmdCause Instr} (hopc : (cmdOpc cmd).toNat = k)
    (hrow : RowFlags k usesB usesW)
    (hbuild : ¬UnusedFieldSet usesB usesW cmd → CheckedInOrder cmd (build (cmdB cmd) (cmdW cmd))) :
    CheckedInOrder cmd (readFields cmd usesB usesW build) := by
  obtain ⟨hk, rfl, rfl⟩ := hrow
  subst hopc
  by_cases h : UnusedFieldSet (decide ((cmdOpc cmd).toNat ∈ opcodesUsingB)) (decide ((cmdOpc cmd).toNat ∈ opcodesUsingW)) cmd
  · rw [readFields_of_unusedFieldSet _ h]
    exact .reservedField hk (.inl h)
  · rw [readFields_of_not_unusedFieldSet _ h]
    exact hbuild h

/-- The rows other than SET_CTRL and G_CMP check nothing but the shared fields. -/
theorem checkedInOrder_row {f : Byte → BitVec 32 → Instr} (hopc : (cmdOpc cmd).toNat = k) (hrow : RowFlags k usesB usesW)
    (h1 : k ≠ 0x01) (h42 : k ≠ 0x42)
    (hf : ∀ b w, encode (f b w) = cmd64 (if usesW then w else 0) (if usesB then b else 0) (BitVec.ofNat 8 k)) :
    CheckedInOrder cmd (readFields cmd usesB usesW fun b w => .ok (f b w)) := by
  refine checkedInOrder_readFields hopc hrow fun h => ?_
  refine .ok (hopc ▸ hrow.assigned) ?_ (fun hop => h42 (hopc ▸ hop.1)) ((hf _ _).trans (cmd64_of_not_unusedFieldSet hopc h))
  rw [fieldBad_iff hopc hrow]
  exact not_or.2 ⟨h, fun hs => h1 hs.1⟩

/-- SET_CTRL also checks B[7:1], and what is left of B is its operand (R74, R181). -/
theorem checkedInOrder_setCtrl (hopc : (cmdOpc cmd).toNat = 0x01) :
    CheckedInOrder cmd (readFields cmd true false fun b _ => buildSetCtrl b) := by
  have hrow : RowFlags 0x01 true false := ⟨by decide, by decide, by decide⟩
  refine checkedInOrder_readFields hopc hrow fun h => ?_
  unfold buildSetCtrl
  split_ifs with hb
  · exact .reservedField (hopc ▸ hrow.assigned) ((fieldBad_iff hopc hrow).2 (.inr ⟨rfl, hb⟩))
  · refine .ok (hopc ▸ hrow.assigned) ?_ ?_ ?_
    · rw [fieldBad_iff hopc hrow]
      exact not_or.2 ⟨h, fun hs => hb hs.2⟩
    · exact fun hop => absurd (hopc.symm.trans hop.1) (by decide)
    · rw [encode, ite_getLsbD_eq_of_high_eq_zero (not_not.1 hb)]
      exact cmd64_of_not_unusedFieldSet (usesB := true) (usesW := false) hopc h

/-- G_CMP checks its selector after the shared fields (R74). -/
theorem checkedInOrder_gCmp (hopc : (cmdOpc cmd).toNat = 0x42) :
    CheckedInOrder cmd (readFields cmd true true fun b w => buildGCmp b w) := by
  have hrow : RowFlags 0x42 true true := ⟨by decide, by decide, by decide⟩
  refine checkedInOrder_readFields hopc hrow fun h => ?_
  have hfield : ¬FieldBad cmd := by
    rw [fieldBad_iff hopc hrow]
    exact not_or.2 ⟨h, nofun⟩
  by_cases hb : 3 < (cmdB cmd).toNat
  · rw [buildGCmp_of_lt hb]
    exact .badOperand (hopc ▸ hrow.assigned) hfield ⟨hopc, hb⟩
  · obtain ⟨sel, hsel⟩ := exists_guardSelCode (Nat.le_of_not_lt hb)
    rw [← hsel, buildGCmp_guardSelCode]
    refine .ok (hopc ▸ hrow.assigned) hfield (fun hop => hb hop.2) ?_
    rw [encode, hsel]
    exact cmd64_of_not_unusedFieldSet (usesB := true) (usesW := true) hopc h

end

/-- The decoder makes the checks of R74 in their order: SET_CTRL (`h_2`) and G_CMP (`h_14`) have a check of their own,
GRP_DEC (`h_5`) takes W apart, `h_15` is an unassigned opcode, and the other rows encode the fields they read as they are. -/
theorem checkedInOrder_decode (cmd : Cmd) : CheckedInOrder cmd (decode cmd) := by
  unfold decode
  split
  case h_2 hopc => exact checkedInOrder_setCtrl hopc
  case h_5 hopc =>
    exact checkedInOrder_row hopc ⟨by decide, by decide, by decide⟩ (by decide) (by decide) encode_buildGrpDec
  case h_14 hopc => exact checkedInOrder_gCmp hopc
  case h_15 => exact .reservedOpcode (by simp_all [assignedOpcodes])
  all_goals
    exact checkedInOrder_row ‹_› ⟨by decide, by decide, by decide⟩ (by decide) (by decide) fun _ _ => rfl

/-- Settles O2: a word without reserved and unused bits is rebuilt from the fields its command keeps. -/
theorem encodeOfDecodeIsTheWord : Obligations.EncodeOfDecodeIsTheWord := by
  intro cmd i hd
  obtain _ | _ | _ | ⟨-, -, -, he⟩ := hd ▸ checkedInOrder_decode cmd
  exact he

end Sys2Proof
end

section
/-! SUPPORT. The words that match a row of opcode_table.json (30_encoding R72, R74), field by field. -/

namespace Sys2Proof

theorem cmdOpc_and (x y : Cmd) : cmdOpc (x &&& y) = cmdOpc x &&& cmdOpc y := BitVec.extractLsb'_and

theorem cmdB_and (x y : Cmd) : cmdB (x &&& y) = cmdB x &&& cmdB y := BitVec.extractLsb'_and

theorem cmdRsv_and (x y : Cmd) : cmdRsv (x &&& y) = cmdRsv x &&& cmdRsv y := BitVec.extractLsb'_and

theorem cmdW_and (x y : Cmd) : cmdW (x &&& y) = cmdW x &&& cmdW y := BitVec.extractLsb'_and

/-- A row read field by field: its pattern is an assigned opcode and 0 elsewhere, and its mask covers the opcode, RSV, what the
column "uses" of R72 leaves out of B and W, and B[7:1] of SET_CTRL. -/
structure RowCovers (mask pattern : Cmd) : Prop where
  opcode : (cmdOpc pattern).toNat ∈ assignedOpcodes
  rsvZero : cmdRsv pattern = 0#16
  bZero : cmdB pattern = 0#8
  wZero : cmdW pattern = 0#32
  opcodeMask : cmdOpc mask = BitVec.allOnes 8
  rsvMask : cmdRsv mask = BitVec.allOnes 16
  bMask : (cmdOpc pattern).toNat ∉ opcodesUsingB → cmdB mask = BitVec.allOnes 8
  wMask : (cmdOpc pattern).toNat ∉ opcodesUsingW → cmdW mask = BitVec.allOnes 32
  setCtrlMask : (cmdOpc pattern).toNat = 0x01 → (cmdB mask).extractLsb' 1 7 = BitVec.allOnes 7

/-- Each field is read off the fourteen rows. -/
theorem rowCovers_of_mem {r : OpcodeRow} (hr : r ∈ opcodeTable) : RowCovers r.mask r.pattern where
  opcode := by revert r; decide
  rsvZero := by revert r; decide
  bZero := by revert r; decide
  wZero := by revert r; decide
  opcodeMask := by revert r; decide
  rsvMask := by revert r; decide
  bMask := by revert r; decide
  wMask := by revert r; decide
  setCtrlMask := by revert r; decide

/-- A word that matches a row has an assigned opcode and passes the check for RESERVED_FIELD. -/
theorem not_fieldBad_of_accepts {r : OpcodeRow} {cmd : Cmd} (hr : RowCovers r.mask r.pattern) (h : r.accepts cmd = true) :
    (cmdOpc cmd).toNat ∈ assignedOpcodes ∧ ¬FieldBad cmd := by
  obtain ⟨hopcode, hrsv, hb, hw, hmo, hmr, hmb, hmw, hmc⟩ := hr
  have hmatch : cmd &&& r.mask = r.pattern := beq_iff_eq.1 h
  have hopc : cmdOpc r.pattern = cmdOpc cmd := by rw [← hmatch, cmdOpc_and, hmo, BitVec.and_allOnes]
  rw [hopc] at hopcode hmb hmw hmc
  rw [← hmatch, cmdRsv_and, hmr, BitVec.and_allOnes] at hrsv
  rw [← hmatch, cmdB_and] at hb
  rw [← hmatch, cmdW_and] at hw
  refine ⟨hopcode, ?_⟩
  rintro ((hset | ⟨hu, hset⟩ | ⟨hu, hset⟩) | ⟨h1, hset⟩)
  · exact hset hrsv
  · rw [hmb (of_decide_eq_false hu), BitVec.and_allOnes] at hb
    exact hset hb
  · rw [hmw (of_decide_eq_false hu), BitVec.and_allOnes] at hw
    exact hset hw
  · have hhigh := congrArg (BitVec.extractLsb' 1 7) hb
    rw [BitVec.extractLsb'_and, hmc h1, BitVec.and_allOnes] at hhigh
    exact hset hhigh

/-- The mask 0xFF leaves the low byte. -/
theorem and_0xFF_toNat (x : BitVec 64) : (x &&& 0xFF#64).toNat = x.toNat % 2 ^ 8 :=
  (BitVec.toNat_and x _).trans (Nat.and_two_pow_sub_one_eq_mod x.toNat 8)

/-- What the model adds to the table's rows is the check for BAD_OPERAND. -/
theorem guardSelectorOk_iff {cmd : Cmd} : guardSelectorOk cmd = true ↔ ¬OperandBad cmd := by
  have hopc : (cmd &&& 0xFF#64 == 0x42#64) = true ↔ (cmdOpc cmd).toNat = 0x42 := by
    rw [beq_iff_eq, ← BitVec.toNat_inj, and_0xFF_toNat, cmdOpc_toNat, BitVec.toNat_ofNat]
  have hb : (cmd >>> 8 &&& 0xFF#64).toNat = (cmdB cmd).toNat := by
    rw [and_0xFF_toNat, BitVec.toNat_ushiftRight, Nat.shiftRight_eq_div_pow, cmdB_toNat]
  rw [guardSelectorOk, hb, Bool.or_eq_true, Bool.not_eq_true', ← Bool.not_eq_true, hopc, decide_eq_true_eq, OperandBad,
    not_and_or, Nat.not_lt]

/-- Every encoded word matches its command's row (R79). -/
theorem tableRow_encode (i : Instr) : Laws.TableRow.Statement i := by
  cases i with
  | nop => exact Laws.TableRow.nop
  | setCtrl pad => exact Laws.TableRow.setCtrl pad
  | clrCmdErr => exact Laws.TableRow.clrCmdErr
  | grpEnc w => exact Laws.TableRow.grpEnc w
  | grpDec c0 c1 c2 c3 c4 => exact Laws.TableRow.grpDec c0 c1 c2 c3 c4
  | encStart => exact Laws.TableRow.encStart
  | encByte b => exact Laws.TableRow.encByte b
  | encEnd => exact Laws.TableRow.encEnd
  | decStart => exact Laws.TableRow.decStart
  | decChar c => exact Laws.TableRow.decChar c
  | decEnd => exact Laws.TableRow.decEnd
  | gClear => exact Laws.TableRow.gClear
  | gByte b => exact Laws.TableRow.gByte b
  | gCmp sel w => exact Laws.TableRow.gCmp sel w

/-- Settles O3: a word that decodes is an encoded word, which matches its command's row; a word that matches a row fails none of
the checks. -/
theorem acceptedWordsAreTheTableRows : Obligations.AcceptedWordsAreTheTableRows := by
  intro cmd
  rw [cmdWellFormed, Bool.and_eq_true, List.any_eq_true, guardSelectorOk_iff]
  have hchecked := checkedInOrder_decode cmd
  generalize decode cmd = answer at hchecked ⊢
  constructor
  · rintro ⟨i, rfl⟩
    obtain _ | _ | _ | ⟨-, -, hoperand, rfl⟩ := hchecked
    obtain ⟨r, hr, -, ha⟩ := tableRow_encode i
    exact ⟨⟨r, hr, ha⟩, hoperand⟩
  · rintro ⟨⟨r, hr, ha⟩, hoperand⟩
    obtain ⟨hopc, hfield⟩ := not_fieldBad_of_accepts (rowCovers_of_mem hr) ha
    cases hchecked with
    | reservedOpcode h => exact absurd hopc h
    | reservedField _ h => exact absurd h hfield
    | badOperand _ _ h => exact absurd h hoperand
    | ok => exact ⟨_, rfl⟩

end Sys2Proof
end

section
/-! SUPPORT. The encoded words as 30_encoding R79 writes them, and the words of the spec's vectors (R74, R77). -/

namespace Sys2Proof

/-- A word from its fields by shifts and ors: bit for bit, each field stands at its own place (R70). -/
theorem cmd64_eq_or (w : BitVec 32) (b : Byte) (opc : BitVec 8) :
    cmd64 w b opc = (w.setWidth 64 <<< 32) ||| (b.setWidth 64 <<< 8) ||| opc.setWidth 64 := by
  apply BitVec.eq_of_getLsbD_eq
  intro i hi
  simp only [cmd64, BitVec.getLsbD_append, BitVec.getLsbD_or, BitVec.getLsbD_shiftLeft, BitVec.getLsbD_setWidth]
  grind

theorem cmd64_zero_W (b : Byte) (opc : BitVec 8) : cmd64 0 b opc = (b.setWidth 64 <<< 8) ||| opc.setWidth 64 := by
  simp [cmd64_eq_or]

theorem cmd64_zero_B (w : BitVec 32) (opc : BitVec 8) : cmd64 w 0 opc = (w.setWidth 64 <<< 32) ||| opc.setWidth 64 := by
  simp [cmd64_eq_or]

/-- Settles O4: a word without operands is one number, and the others are `cmd64` by shifts and ors. -/
theorem encodedWordsAreThoseOfTheSpec : Obligations.EncodedWordsAreThoseOfTheSpec := by
  refine ⟨rfl, fun pad => ?setCtrl, rfl, fun w => cmd64_zero_B w 0x10, fun c0 c1 c2 c3 c4 => cmd64_eq_or _ c0 0x11, rfl,
    fun b => cmd64_zero_W b 0x21, rfl, rfl, fun c => cmd64_zero_W c 0x31, rfl, rfl, fun b => cmd64_zero_W b 0x41,
    fun sel w => ?gCmp⟩
  case setCtrl => cases pad <;> rfl
  case gCmp =>
    rw [encode, cmd64_eq_or]
    cases sel <;> rfl

/-- Settles O5: the decoder computes on each of the eight words. -/
theorem vectorWordsDecode : Obligations.VectorWordsDecode := by
  unfold Obligations.VectorWordsDecode
  decide

/-- Settles O6: the assembler and the encoder compute on each of the seven lines. -/
theorem assemblerLinesGiveTheVectorWords : Obligations.AssemblerLinesGiveTheVectorWords := by
  unfold Obligations.AssemblerLinesGiveTheVectorWords
  decide

end Sys2Proof
end

section
/-! SUPPORT. What a step does with every word (30_encoding R73, R74; 60_exceptions R203). -/

namespace Sys2Proof.Machine

open Sys2Proof

/-- A step on an issued word that does not decode is a command error with the decoder's cause, and has no other effect
(R74, R203). -/
theorem step_rejected {s : State} {cmd : Cmd} {rest : List HostAction} {c : CmdCause} (hc : IsInstance s.cfg)
    (hp : s.pending = .issue cmd :: rest) (hd : decode cmd = .error c) :
    ∃ t, step s = .next t ∧ Rejected c { s with pending := rest } t := by
  refine ⟨cmdError c { s with pending := rest }, ?_, cmdError_rejected c _⟩
  rw [step_pending hc hp]
  simp only [perform, issue, hd]

/-- The check for RESERVED_FIELD in arithmetic on the word. -/
theorem fieldBad_iff_toNat {cmd : Cmd} : FieldBad cmd ↔
    cmd.toNat / 2 ^ 16 % 2 ^ 16 ≠ 0 ∨
      (cmd.toNat % 2 ^ 8 ∉ opcodesUsingB ∧ cmd.toNat / 2 ^ 8 % 2 ^ 8 ≠ 0) ∨
        (cmd.toNat % 2 ^ 8 ∉ opcodesUsingW ∧ cmd.toNat / 2 ^ 32 ≠ 0) ∨
          (cmd.toNat % 2 ^ 8 = 0x01 ∧ cmd.toNat / 2 ^ 8 % 2 ^ 8 / 2 ≠ 0) := by
  simp only [FieldBad, UnusedFieldSet, decide_eq_false_iff_not, ne_eq, setCtrlHigh_eq_zero_iff, or_assoc]
  simp only [← BitVec.toNat_inj, cmdOpc_toNat, cmdB_toNat, cmdRsv_toNat, cmdW_toNat, BitVec.toNat_ofNat, Nat.zero_mod]

/-- The check for BAD_OPERAND in arithmetic on the word. -/
theorem operandBad_iff_toNat {cmd : Cmd} :
    OperandBad cmd ↔ cmd.toNat % 2 ^ 8 = 0x42 ∧ 3 < cmd.toNat / 2 ^ 8 % 2 ^ 8 := by
  rw [OperandBad, cmdOpc_toNat, cmdB_toNat]

/-- Settles O8: the statement's conditions are the checks of `CheckedInOrder`, and each answer of the decoder belongs to one
clause. -/
theorem everyWordIsCheckedInOrder : Obligations.EveryWordIsCheckedInOrder := by
  intro s cmd rest hc hp s0 opc b rsv w assigned usesB usesW fieldBad operandBad
  have hopc : (cmdOpc cmd).toNat = opc := cmdOpc_toNat cmd
  have hfield : FieldBad cmd ↔ fieldBad := fieldBad_iff_toNat
  have hoperand : OperandBad cmd ↔ operandBad := operandBad_iff_toNat
  rw [← hopc, ← hfield, ← hoperand]
  have hchecked := checkedInOrder_decode cmd
  generalize hd : decode cmd = answer at hchecked ⊢
  cases hchecked with
  | reservedOpcode h =>
    exact ⟨fun _ => step_rejected hc hp hd, fun ha => absurd ha h, fun ha => absurd ha h, fun ha => absurd ha h⟩
  | reservedField ha hf =>
    exact ⟨absurd ha, fun _ _ => step_rejected hc hp hd, fun _ => absurd hf, fun _ => absurd hf⟩
  | badOperand ha hf ho =>
    exact ⟨absurd ha, fun _ h => absurd h hf, fun _ _ _ => step_rejected hc hp hd, fun _ _ => absurd ho⟩
  | ok ha hf ho he =>
    exact ⟨absurd ha, fun _ h => absurd h hf, fun _ _ h => absurd h ho, fun _ _ _ => ⟨_, rfl, he, step_issue hc hp hd⟩⟩

end Sys2Proof.Machine
end

section
/-! SUPPORT. The digits, the characters and the value of a group (10_state R25; 40_group_codec R100, R102, R103, R105). -/

namespace Sys2Proof.Machine

open Sys2Proof

variable {c : Config}

/-! A group and its digits -/

/-- The powers of 85 written out (R100). -/
theorem encDigits_eq (g : Group) : encDigits g =
    [g.toNat / 52200625 % 85, g.toNat / 614125 % 85, g.toNat / 7225 % 85, g.toNat / 85 % 85, g.toNat % 85] := by
  simp [encDigits, digit]

/-- Five digits folded onto 0 (R102). -/
theorem foldl_fold_five (d0 d1 d2 d3 d4 : Nat) :
    [d0, d1, d2, d3, d4].foldl fold 0 = d0 * 52200625 + d1 * 614125 + d2 * 7225 + d3 * 85 + d4 := by
  simp only [List.foldl, fold]
  omega

/-- A group has no more than five digits, so folding them gives it back: 2^32 is below 85^5 (R100, R105). -/
theorem foldl_fold_encDigits (g : Group) : (encDigits g).foldl fold 0 = g.toNat := by
  have hg := g.isLt
  rw [encDigits_eq, foldl_fold_five]
  omega

/-- 82 * 85^4 is at most 2^32 - 1, and 83 * 85^4 is above it (R100). -/
theorem digit_zero_le (g : Group) : digit g 0 ≤ 82 := by
  have hg := g.isLt
  simp only [digit]
  omega

/-! The value of a quintet -/

/-- R103. -/
theorem decGroup_of_le {v : Nat} (h : v ≤ maxGroup) : decGroup v = some (BitVec.ofNat 32 v) := if_neg (Nat.not_lt.2 h)

theorem decGroup_toNat (g : Group) : decGroup g.toNat = some g := by
  have hg : g.toNat ≤ maxGroup := Nat.le_of_lt_succ g.isLt
  rw [decGroup_of_le hg, BitVec.ofNat_toNat, BitVec.setWidth_eq]

/-- The four bytes of the low 32 bits of a number (R11, R57). -/
theorem be4_ofNat (v : Nat) : be4 (BitVec.ofNat 32 v) =
    [BitVec.ofNat 8 (v / 256 ^ 3), BitVec.ofNat 8 (v / 256 ^ 2), BitVec.ofNat 8 (v / 256), BitVec.ofNat 8 v] := by
  simp only [be4, List.cons.injEq, and_true]
  refine ⟨?_, ?_, ?_, ?_⟩ <;> apply BitVec.eq_of_toNat_eq <;> simp only [field_toNat, BitVec.toNat_ofNat] <;> omega

/-- A character outside the alphabet, and nothing else, leaves a sequence without a value (R104). -/
theorem quintetValue_eq_none_iff {chs : List Byte} {acc : Nat} :
    quintetValue c chs acc = none ↔ ∃ ch ∈ chs, c.charMap ch = none := by
  induction chs generalizing acc with
  | nil => simp [quintetValue]
  | cons ch chs ih => cases h : c.charMap ch <;> simp [quintetValue, h, ih]

/-- The value of a sequence of digit characters is that of their digits (R102, R104). -/
theorem quintetValue_eq_foldl {chs : List Byte} {ds : List Nat} (h : List.Forall₂ (fun ch d => c.charMap ch = some d) chs ds)
    (acc : Nat) : quintetValue c chs acc = some (ds.foldl fold acc) := by
  induction h generalizing acc with
  | nil => rfl
  | cons hd _ ih => simp only [quintetValue, hd, ih, List.foldl_cons]

/-- The characters of a group read back as its digits (R12, R100). -/
theorem forall₂_charMap_encGroup (hc : c.configOk = true) (g : Group) :
    List.Forall₂ (fun ch d => c.charMap ch = some d) (encGroup c g) (encDigits g) := by
  obtain ⟨hlen, hnodup, -⟩ := (Config.configOk_iff c).1 hc
  have hdigit (i : Nat) : c.charMap (c.alpha (digit g i)) = some (digit g i) :=
    charMap_alpha hnodup (hlen ▸ digit_lt g i)
  simp [encGroup, encDigits, hdigit]

/-- The characters of a group have its value (R105). -/
theorem quintetValue_encGroup (hc : c.configOk = true) (g : Group) : quintetValue c (encGroup c g) 0 = some g.toNat := by
  rw [quintetValue_eq_foldl (forall₂_charMap_encGroup hc g), foldl_fold_encDigits]

/-! The lanes of QDIG and QCHR -/

/-- R25: digit i stands in bits [34-7i : 28-7i]. -/
theorem packDigits_lane (g : Group) {i : Nat} (hi : i < 5) :
    (packDigits g).toNat / 2 ^ (7 * (4 - i)) % 2 ^ 7 = digit g i := by
  have hd := digit_lt g
  have h0 := hd 0
  have h1 := hd 1
  have h2 := hd 2
  have h3 := hd 3
  have h4 := hd 4
  rw [packDigits_toNat]
  interval_cases i <;> omega

/-- R25: the character of digit i stands in bits [39-8i : 32-8i]. -/
theorem packChars_lane (c : Config) (g : Group) {i : Nat} (hi : i < 5) :
    (packChars c g).toNat / 2 ^ (8 * (4 - i)) % 2 ^ 8 = (c.alpha (digit g i)).toNat := by
  have h (j : Nat) := (c.alpha (digit g j)).isLt
  have h0 := h 0
  have h1 := h 1
  have h2 := h 2
  have h3 := h 3
  have h4 := h 4
  rw [packChars_toNat]
  interval_cases i <;> omega

/-- The five fields of QCHR are the characters of the group (R25, R100). -/
theorem packChars_fields (c : Config) (g : Group) :
    [(packChars c g).extractLsb' 32 8, (packChars c g).extractLsb' 24 8, (packChars c g).extractLsb' 16 8,
      (packChars c g).extractLsb' 8 8, (packChars c g).extractLsb' 0 8] = encGroup c g := by
  have hfield {i : Nat} (hi : i < 5) : (packChars c g).extractLsb' (8 * (4 - i)) 8 = c.alpha (digit g i) :=
    BitVec.eq_of_toNat_eq ((field_toNat _ _ _).trans (packChars_lane c g hi))
  simp only [encGroup, encDigits, List.map, List.cons.injEq, and_true]
  exact ⟨hfield (i := 0) (by decide), hfield (i := 1) (by decide), hfield (i := 2) (by decide),
    hfield (i := 3) (by decide), hfield (i := 4) (by decide)⟩

end Sys2Proof.Machine
end

section
/-! SUPPORT. What GRP_ENC and GRP_DEC do in every state, and that the second undoes the first (40_group_codec R101, R103 to R105;
60_exceptions R202). -/

namespace Sys2Proof.Machine

open Sys2Proof

variable {s : State} {chs : List Byte}

/-- R101. -/
theorem exec_grpEnc (w : Group) (s : State) :
    exec (.grpEnc w) s = .next (groupResult .ok { s with qdig := packDigits w, qchr := packChars s.cfg w }) := rfl

/-- R104. -/
theorem exec_grpDec (c0 c1 c2 c3 c4 : Byte) (s : State) :
    exec (.grpDec c0 c1 c2 c3 c4) s = .next (decodeQuintet [c0, c1, c2, c3, c4] s) := rfl

/-- An unknown character is reported whatever the others are (R104). -/
theorem decodeQuintet_of_unknown (h : ∃ ch ∈ chs, s.cfg.charMap ch = none) :
    decodeQuintet chs s = groupResult .unrecognizedChar s := by
  simp only [decodeQuintet, quintetValue_eq_none_iff.2 h]

/-- R103, R104. -/
theorem decodeQuintet_of_overflow {v : Nat} (hv : quintetValue s.cfg chs 0 = some v) (h : decGroup v = none) :
    decodeQuintet chs s = groupResult .overflow s := by
  simp only [decodeQuintet, hv, h]

/-- R103, R104. -/
theorem decodeQuintet_of_group {v : Nat} {g : Group} (hv : quintetValue s.cfg chs 0 = some v) (h : decGroup v = some g) :
    decodeQuintet chs s = groupResult .ok { s with gw := g } := by
  simp only [decodeQuintet, hv, h]

/-- The characters of a group decode to it (R105). -/
theorem decodeQuintet_encGroup (hc : s.cfg.configOk = true) (g : Group) :
    decodeQuintet (encGroup s.cfg g) s = groupResult .ok { s with gw := g } :=
  decodeQuintet_of_group (quintetValue_encGroup hc g) (decGroup_toNat g)

/-- GRP_DEC of the five fields of QCHR decodes the group whose characters stand there (R105). -/
theorem exec_grpDec_of_qchr {v : Group} (hc : s.cfg.configOk = true) (hq : s.qchr = packChars s.cfg v) :
    exec (.grpDec (s.qchr.extractLsb' 32 8) (s.qchr.extractLsb' 24 8) (s.qchr.extractLsb' 16 8)
      (s.qchr.extractLsb' 8 8) (s.qchr.extractLsb' 0 8)) s = .next (groupResult .ok { s with gw := v }) := by
  rw [exec_grpDec, ← decodeQuintet_encGroup hc, ← packChars_fields, hq]

/-- An update of the group registers `regs` with a GERR code is a group result (R202). -/
theorem groupResulted_writes {regs : List Nat} {qchr : BitVec 40} {qdig : BitVec 35} {gw : BitVec 32} (e : GroupErr)
    (hqchr : 0x09 ∉ regs → qchr = s.qchr) (hqdig : 0x0A ∉ regs → qdig = s.qdig) (hgw : 0x0B ∉ regs → gw = s.gw) :
    GroupResulted e regs s (groupResult e { s with qchr := qchr, qdig := qdig, gw := gw }) where
  code := rfl
  frame :=
    { frame_group_writes s qchr qdig gw e with
      regs := by
        apply regs_kept
        case h9 => exact hqchr
        case h10 => exact hqdig
        case h11 => exact hgw
        all_goals exact fun _ => rfl }
  buf := fun _ => rfl

/-- A group result that writes no register (R202). -/
theorem groupResulted_groupResult (e : GroupErr) (s : State) : GroupResulted e [] s (groupResult e s) :=
  groupResulted_writes e (fun _ => rfl) (fun _ => rfl) (fun _ => rfl)

/-- Settles O23: GRP_ENC writes QDIG and QCHR, whose lanes are the digits of the group and their characters. -/
theorem grpEncLeavesDigitsAndCharacters : Obligations.GrpEncLeavesDigitsAndCharacters := by
  intro w s
  refine ⟨_, exec_grpEnc w s, groupResulted_writes .ok (by simp) (by simp) (fun _ => rfl), fun i => ?_⟩
  exact ⟨packDigits_lane w i.isLt, packChars_lane s.cfg w i.isLt⟩

/-- Settles O24: five characters have a value exactly when each is a digit, and the value decides between overflow and group. -/
theorem grpDecDecodesOrReports : Obligations.GrpDecDecodesOrReports := by
  intro c0 c1 c2 c3 c4 s
  constructor
  · intro h
    refine ⟨_, exec_grpDec c0 c1 c2 c3 c4 s, ?_⟩
    rw [decodeQuintet_of_unknown h]
    exact groupResulted_groupResult _ s
  · intro d0 d1 d2 d3 d4 v h0 h1 h2 h3 h4 hv
    have hvalue : quintetValue s.cfg [c0, c1, c2, c3, c4] 0 = some v := by
      rw [quintetValue_eq_foldl (.cons h0 (.cons h1 (.cons h2 (.cons h3 (.cons h4 .nil))))), foldl_fold_five, hv]
    constructor
    · intro h
      refine ⟨_, exec_grpDec c0 c1 c2 c3 c4 s, ?_⟩
      rw [decodeQuintet_of_overflow hvalue (decGroup_none.2 h)]
      exact groupResulted_groupResult _ s
    · intro h
      have hgroup := decGroup_of_le h
      refine ⟨_, exec_grpDec c0 c1 c2 c3 c4 s, ?_⟩
      rw [decodeQuintet_of_group hvalue hgroup]
      exact ⟨(decGroup_some hgroup).2, groupResulted_writes .ok (fun _ => rfl) (fun _ => rfl) (by simp)⟩

/-- Settles O25: GRP_ENC leaves the characters of v in QCHR, and those decode to v. -/
theorem groupRoundTrip : Obligations.GroupRoundTrip := fun v s hc =>
  ⟨by rw [foldl_fold_encDigits, decGroup_toNat], _, _, exec_grpEnc v s, exec_grpDec_of_qchr hc rfl, rfl, rfl⟩

/-- Settles O21: R100 with the powers of 85 written out; the digits' value is the fold of `encDigits`. -/
theorem groupDigits : Obligations.GroupDigits := fun _ g =>
  ⟨encDigits_eq g, rfl, digit_zero_le g, (foldl_fold_five ..).symm.trans (foldl_fold_encDigits g)⟩

/-- Settles O22: `decGroup` compares strictly with 2^32 - 1, and below it keeps the value. -/
theorem quintetOverflowsAboveTheLargestGroup : Obligations.QuintetOverflowsAboveTheLargestGroup := fun v _ =>
  ⟨decGroup_none.2, fun h => ⟨_, decGroup_of_le h, be4_ofNat v⟩⟩

end Sys2Proof.Machine
end

section
/-! SUPPORT. An input as whole groups and the bytes held after them (10_state R24; 41_stream_encode R120): what `groupsOf` does with
more bytes, and a partial group with zeros in its free lanes. -/

namespace Sys2Proof.Machine

open Sys2Proof

/-- The bytes of x after its last whole group: those the encoder holds. -/
def heldBytes (x : List Byte) : List Byte := x.drop (x.length / 4 * 4)

/-- A partial group with zeros in its free lanes, as a group (R24). -/
def zeroFilled (r : List Byte) : Group := beGroup (r.getD 0 0) (r.getD 1 0) (r.getD 2 0) (r.getD 3 0)

/-! The bytes held -/

@[simp] theorem heldBytes_length (x : List Byte) : (heldBytes x).length = x.length % 4 := by
  rw [heldBytes, List.length_drop]
  omega

theorem heldBytes_of_length_lt {r : List Byte} (h : r.length < 4) : heldBytes r = r := by
  rw [heldBytes, Nat.div_eq_of_lt h, Nat.zero_mul, List.drop_zero]

/-- A whole group at the front is not held. -/
theorem heldBytes_cons₄ (b0 b1 b2 b3 : Byte) (x : List Byte) : heldBytes (b0 :: b1 :: b2 :: b3 :: x) = heldBytes x := by
  have hlen : (b0 :: b1 :: b2 :: b3 :: x).length / 4 * 4 = x.length / 4 * 4 + 4 := by
    simp only [List.length_cons]
    omega
  rw [heldBytes, hlen]
  rfl

/-- One more byte is held until it fills the group (R122). -/
theorem heldBytes_append_of_lt {x : List Byte} (h : x.length % 4 < 3) (b : Byte) :
    heldBytes (x ++ [b]) = heldBytes x ++ [b] := by
  have hlen : (x ++ [b]).length / 4 * 4 = x.length / 4 * 4 := by
    rw [List.length_append, List.length_singleton]
    omega
  rw [heldBytes, hlen, List.drop_append_of_le_length (Nat.div_mul_le_self _ _), heldBytes]

theorem heldBytes_append_of_eq {x : List Byte} (h : x.length % 4 = 3) (b : Byte) : heldBytes (x ++ [b]) = [] := by
  rw [← List.length_eq_zero_iff, heldBytes_length, List.length_append, List.length_singleton]
  omega

/-! Whole groups -/

theorem groupsOf_of_length_lt {r : List Byte} (h : r.length < 4) : groupsOf r = [] := by
  match r, h with
  | [], _ => rfl
  | [_], _ => rfl
  | [_, _], _ => rfl
  | [_, _, _], _ => rfl

theorem groupsOf_of_length_eq {r : List Byte} (h : r.length = 4) : groupsOf r = [zeroFilled r] := by
  match r, h with
  | [_, _, _, _], _ => rfl

/-- What is not split by `groupsOf` is shorter than a group. -/
theorem length_lt_of_no_group {r : List Byte} (h : ∀ b0 b1 b2 b3 rest, r = b0 :: b1 :: b2 :: b3 :: rest → False) :
    r.length < 4 := by
  match r with
  | [] | [_] | [_, _] | [_, _, _] => simp
  | b0 :: b1 :: b2 :: b3 :: rest => exact (h b0 b1 b2 b3 rest rfl).elim

@[simp] theorem groupsOf_length (x : List Byte) : (groupsOf x).length = x.length / 4 := by
  induction x using groupsOf.induct with
  | case1 b0 b1 b2 b3 rest ih =>
    simp only [groupsOf, List.length_cons, ih]
    omega
  | case2 r hr =>
    have hlt := length_lt_of_no_group hr
    rw [groupsOf_of_length_lt hlt, Nat.div_eq_of_lt hlt, List.length_nil]

/-- Bytes given after x join those x leaves held, and x's whole groups stay as they are (R120 step 2). -/
theorem groupsOf_append (x y : List Byte) : groupsOf (x ++ y) = groupsOf x ++ groupsOf (heldBytes x ++ y) := by
  induction x using groupsOf.induct with
  | case1 b0 b1 b2 b3 rest ih =>
    rw [heldBytes_cons₄]
    exact congrArg (beGroup b0 b1 b2 b3 :: ·) ih
  | case2 r hr =>
    have hlt := length_lt_of_no_group hr
    rw [heldBytes_of_length_lt hlt, groupsOf_of_length_lt hlt, List.nil_append]

/-- The bytes held add no group. -/
theorem groupsOf_take (x : List Byte) : groupsOf (x.take (x.length / 4 * 4)) = groupsOf x := by
  have hheld : heldBytes (x.take (x.length / 4 * 4)) = [] := by
    rw [← List.length_eq_zero_iff, heldBytes_length, List.length_take]
    omega
  have hlt : (heldBytes x).length < 4 := by
    rw [heldBytes_length]
    exact Nat.mod_lt _ (by decide)
  calc groupsOf (x.take (x.length / 4 * 4))
      = groupsOf (x.take (x.length / 4 * 4)) ++ groupsOf (heldBytes x) := by
        rw [groupsOf_of_length_lt hlt, List.append_nil]
    _ = groupsOf (x.take (x.length / 4 * 4) ++ heldBytes x) := by rw [groupsOf_append, hheld, List.nil_append]
    _ = groupsOf x := by rw [heldBytes, List.take_append_drop]

/-! The group held -/

/-- Zeros written out and zeros of free lanes are the same (R24). -/
theorem zeroFilled_append_zeros (r : List Byte) (n : Nat) : zeroFilled (r ++ List.replicate n 0) = zeroFilled r := by
  have hget (i : Nat) : (r ++ List.replicate n 0).getD i 0 = r.getD i 0 := by
    simp only [List.getD_eq_getElem?_getD]
    rcases Nat.lt_or_ge i r.length with hi | hi
    · rw [List.getElem?_append_left hi]
    · rw [List.getElem?_append_right hi, List.getElem?_replicate, List.getElem?_eq_none hi]
      split <;> rfl
  simp only [zeroFilled, hget]

/-- The free lanes of a partial group are zero (R24). -/
theorem zeroFilled_mod {r : List Byte} (h : r.length ≤ 3) : (zeroFilled r).toNat % 2 ^ (32 - 8 * r.length) = 0 := by
  match r, h with
  | [], _ => rfl
  | [_], _ | [_, _], _ | [_, _, _], _ =>
    rw [zeroFilled, beGroup_toNat]
    simp only [List.getD_cons_zero, List.getD_cons_succ, List.getD_nil, List.length_cons, List.length_nil,
      BitVec.ofNat_eq_ofNat, BitVec.toNat_ofNat]
    omega

/-- One more byte goes to the first free lane (R24, R122). -/
theorem zeroFilled_append {r : List Byte} (h : r.length ≤ 3) (b : Byte) :
    zeroFilled (r ++ [b]) = zeroFilled r ||| byteLane r.length b := by
  apply BitVec.eq_of_toNat_eq
  rw [or_byteLane_toNat h (zeroFilled_mod h)]
  match r, h with
  | [], _ | [_], _ | [_, _], _ | [_, _, _], _ =>
    simp [zeroFilled, beGroup_toNat]

/-! The padded input -/

theorem groupsOf_zeroPadded_of_eq {x : List Byte} (h : x.length % 4 = 0) : groupsOf (zeroPadded x) = groupsOf x := by
  rw [zeroPadded, padCount, h, Nat.sub_zero, Nat.mod_self, List.replicate_zero, List.append_nil]

/-- The padded input has one group more than the whole ones of x: the bytes held, with zeros in the free lanes (R120 step 1). -/
theorem groupsOf_zeroPadded_of_ne {x : List Byte} (h : x.length % 4 ≠ 0) :
    groupsOf (zeroPadded x) = groupsOf x ++ [zeroFilled (heldBytes x)] := by
  have hlen : (heldBytes x ++ List.replicate (padCount x.length) 0).length = 4 := by
    rw [List.length_append, heldBytes_length, List.length_replicate, padCount]
    omega
  rw [zeroPadded, groupsOf_append, groupsOf_of_length_eq hlen, zeroFilled_append_zeros]

end Sys2Proof.Machine
end

section
/-! SUPPORT. The characters of a group and of a whole input (41_stream_encode R120, R123, R127, R128). -/

namespace Sys2Proof.Machine

open Sys2Proof

variable {c : Config}

/-! The characters of a group -/

theorem groupChars_of_excChr {g : Group} {ch : Byte} (h : c.excChr g = some ch) : groupChars c g = [ch] := by
  rw [groupChars, h]

theorem groupChars_of_no_excChr {g : Group} (h : c.excChr g = none) : groupChars c g = encGroup c g := by
  rw [groupChars, h]

/-- Settles O27: the exception is looked up first, and the five digits of a group without one are those of R100. -/
theorem groupCharactersExceptionFirst : Obligations.GroupCharactersExceptionFirst := by
  intro c g
  refine ⟨fun ch h => groupChars_of_excChr h, fun h => ?_⟩
  rw [groupChars_of_no_excChr h, encGroup, encDigits]
  simp [digit]

/-- Of k groups each writes five characters, but one where it has an exception character (R128). -/
theorem length_flatMap_groupChars (c : Config) (gs : List Group) :
    (gs.flatMap (groupChars c)).length + 4 * (gs.filter fun g => (c.excChr g).isSome).length = 5 * gs.length := by
  induction gs with
  | nil => rfl
  | cons g gs ih =>
    rw [List.flatMap_cons, List.length_append, List.filter_cons, List.length_cons]
    cases h : c.excChr g with
    | some ch =>
      rw [groupChars_of_excChr h, List.length_singleton, Option.isSome_some, if_pos rfl, List.length_cons]
      omega
    | none =>
      rw [groupChars_of_no_excChr h, Option.isSome_none, if_neg Bool.false_ne_true, encGroup_length]
      omega

/-! The characters of an input -/

/-- The characters of the whole groups of x. -/
def wholeChars (c : Config) (x : List Byte) : List Byte := (groupsOf x).flatMap (groupChars c)

/-- More bytes only add characters: those of the groups they make with the bytes held (R122). -/
theorem wholeChars_append (c : Config) (x y : List Byte) :
    wholeChars c (x ++ y) = wholeChars c x ++ (groupsOf (heldBytes x ++ y)).flatMap (groupChars c) := by
  rw [wholeChars, groupsOf_append, List.flatMap_append, wholeChars]

/-- The characters of R120 before its step 4 are those of the padded input, which is whole groups. -/
theorem encodeUntruncated_eq_wholeChars (c : Config) (x : List Byte) :
    encodeUntruncated c x = wholeChars c (zeroPadded x) := rfl

theorem encodeUntruncated_of_eq (c : Config) {x : List Byte} (h : x.length % 4 = 0) :
    encodeUntruncated c x = wholeChars c x := by
  rw [encodeUntruncated_eq_wholeChars, wholeChars, groupsOf_zeroPadded_of_eq h, wholeChars]

/-- The characters of the padded group come after those of the whole groups (R120). -/
theorem encodeUntruncated_of_ne (c : Config) {x : List Byte} (h : x.length % 4 ≠ 0) :
    encodeUntruncated c x = wholeChars c x ++ groupChars c (zeroFilled (heldBytes x)) := by
  rw [encodeUntruncated_eq_wholeChars, wholeChars, groupsOf_zeroPadded_of_ne h, List.flatMap_append, List.flatMap_singleton,
    wholeChars]

/-- The whole groups of an input alone (R127). -/
theorem encodeUntruncated_take (c : Config) (x : List Byte) :
    encodeUntruncated c (x.take (x.length / 4 * 4)) = wholeChars c x := by
  have hlen : (x.take (x.length / 4 * 4)).length % 4 = 0 := by
    rw [List.length_take]
    omega
  rw [encodeUntruncated_of_eq c hlen, wholeChars, groupsOf_take, wholeChars]

/-- Step 4 of R120 in all its cases: the first characters are kept, all of them where PAD is 1 or no byte was added. -/
theorem encodeAll_eq_take (c : Config) (x : List Byte) (pad : Bool) :
    encodeAll c x pad =
      (encodeUntruncated c x).take ((encodeUntruncated c x).length - if pad then 0 else padCount x.length) := by
  cases pad with
  | true => simp [encodeAll]
  | false =>
    by_cases hp : padCount x.length = 0
    · simp [encodeAll, hp]
    · simp [encodeAll, hp]

/-- Settles O52: the free lanes of the padded group are zero, and its one character is the first of the p removed. -/
theorem finalGroupExceptionLosesData : Obligations.FinalGroupExceptionLosesData := by
  intro c x g ch p full hp hlast hexc
  have hne : x.length % 4 ≠ 0 := by omega
  rw [groupsOf_zeroPadded_of_ne hne, List.getLast?_concat, Option.some_inj] at hlast
  subst hlast
  have hheld : (heldBytes x).length = 4 - p := by
    rw [heldBytes_length]
    omega
  constructor
  · have hmod := zeroFilled_mod (r := heldBytes x) (by omega)
    rwa [hheld, show 32 - 8 * (4 - p) = 8 * p by omega] at hmod
  · have hfull : full = wholeChars c x := encodeUntruncated_take c x
    have hall : encodeUntruncated c x = full ++ [ch] := by
      rw [encodeUntruncated_of_ne c hne, groupChars_of_excChr hexc, hfull]
    have hkept : (full ++ [ch]).length - p = full.length - (p - 1) := by
      rw [List.length_append, List.length_singleton]
      omega
    calc encodeAll c x false
        = (full ++ [ch]).take ((full ++ [ch]).length - p) := by rw [encodeAll_eq_take, hall]; rfl
      _ = full.take (full.length - (p - 1)) := by rw [hkept, List.take_append_of_le_length (Nat.sub_le _ _)]

/-- Settles O53: the whole groups are counted by `length_flatMap_groupChars`; a padded one adds five characters less those cut. -/
theorem encodedLength : Obligations.EncodedLength := by
  intro c x q r e hlast
  have hwhole : (wholeChars c x).length + 4 * e = 5 * q :=
    (length_flatMap_groupChars c (groupsOf x)).trans (by rw [groupsOf_length])
  simp only [encodeAll_eq_take, List.length_take, padCount]
  by_cases hr : r = 0
  · simp only [encodeUntruncated_of_eq c hr, if_pos hr, Bool.false_eq_true, reduceIte]
    omega
  · have hexc : c.excChr (zeroFilled (heldBytes x)) = none :=
      hlast hr _ (by rw [groupsOf_zeroPadded_of_ne hr, List.getLast?_concat])
    simp only [encodeUntruncated_of_ne c hr, groupChars_of_no_excChr hexc, List.length_append, encGroup_length, if_neg hr,
      Bool.false_eq_true, reduceIte]
    omega

end Sys2Proof.Machine
end

section
/-! SUPPORT. What ENC_START, ENC_BYTE and ENC_END do in every state (41_stream_encode R121, R122, R126; 30_encoding R75), with the
frames of the stream's operations (00_scope R11, R13). -/

namespace Sys2Proof.Machine

open Sys2Proof

variable {s t : State}

/-! The frames of the stream's operations -/

/-- An update of the stream part leaves every stream register it does not write, and everything outside the stream part. -/
theorem frame_of_stream {regs : List Nat} {mask : BitVec 32} (hpart : t = s.withStreamOf t)
    (holen : 0x02 ∉ regs → t.olen = s.olen) (hebuf : 0x03 ∉ regs → t.ebuf = s.ebuf)
    (hebcnt : 0x04 ∉ regs → t.ebcnt = s.ebcnt) (hecnt : 0x05 ∉ regs → t.ecnt = s.ecnt)
    (hacc : 0x06 ∉ regs → t.acc = s.acc) (hdcnt : 0x07 ∉ regs → t.dcnt = s.dcnt) (hlcnt : 0x08 ∉ regs → t.lcnt = s.lcnt)
    (hstat : t.stat.word &&& ~~~mask = s.stat.word &&& ~~~mask) :
    Frame regs mask s t := by
  have hframe := frame_withStreamOf s t
  rw [← hpart] at hframe
  refine { hframe with stat := hstat, regs := ?_ }
  rw [hpart] at holen hebuf hebcnt hecnt hacc hdcnt hlcnt ⊢
  exact regs_kept (fun _ => rfl) holen hebuf hebcnt hecnt hacc hdcnt hlcnt (fun _ => rfl) (fun _ => rfl) (fun _ => rfl)
    (fun _ => rfl) (fun _ => rfl) (fun _ => rfl) (fun _ => rfl)

/-- A stream error taken after a count (R13, R201). -/
theorem failed_streamError {regs : List Nat} (e : StreamErr) {n l : Counter} (hecnt : 0x05 ∉ regs → n = s.ecnt)
    (hlcnt : 0x08 ∉ regs → l = s.lcnt) : Failed e regs s (streamError e { s with ecnt := n, lcnt := l }) where
  state := rfl
  code := rfl
  olen := rfl
  frame := by
    apply frame_of_stream rfl
    case hecnt => exact fun h => hecnt (mt (List.mem_cons_of_mem _) h)
    case hlcnt => exact fun h => hlcnt (mt (List.mem_cons_of_mem _) h)
    case holen => exact fun h => absurd List.mem_cons_self h
    case hstat => exact word_keeps_stream s.stat .err e
    all_goals exact fun _ => rfl
  buf := fun _ => rfl

/-- Bytes stored into OBUF stand there, and every other byte is kept (R11). -/
theorem storedAt_store {a : Nat} {bs : List Byte} (h : t.obuf = s.obuf.store a bs) : StoredAt a bs s t where
  stored k hk := by rw [h, read_store_inside _ _ _ hk]
  kept x hx := by rw [h, read_store_outside _ _ hx]

/-- In a block whose OBUF_CAP is allowed an append that fits does not wrap OLEN round (R5, R20). -/
theorem append_olen_toNat (hc : s.cfg.capacityOk = true) {bs : List Byte}
    (hf : s.olen.toNat + bs.length ≤ s.cfg.obufCap) : (append bs s).olen.toNat = s.olen.toNat + bs.length := by
  simp only [Config.capacityOk, Bool.and_eq_true, decide_eq_true_eq] at hc
  rw [append_olen, BitVec.toNat_ofNat, Nat.mod_eq_of_lt (by omega)]

/-! The state check (R75) -/

theorem inStream_of_eq {want : StreamState} (run : State → State) (h : s.stat.state = want) : inStream want run s = run s :=
  if_pos h

theorem inStream_of_err {want : StreamState} (run : State → State) (hw : want ≠ .err) (h : s.stat.state = .err) :
    inStream want run s = s := by
  rw [inStream, if_neg (h ▸ hw.symm), if_pos h]

theorem rejected_inStream {want : StreamState} (run : State → State) (hw : s.stat.state ≠ want)
    (he : s.stat.state ≠ .err) : Rejected .wrongState s (inStream want run s) := by
  rw [inStream, if_neg hw, if_neg he]
  exact cmdError_rejected .wrongState s

/-- A command that is its pseudocode under the state check is rejected, ignored or run (R75). -/
theorem exec_of_stateCheck {i : Instr} {want : StreamState} {run : State → State} (hexec : exec i s = .next (inStream want run s))
    (hw : want ≠ .err) :
    (s.stat.state ≠ want → s.stat.state ≠ .err → ∃ t, exec i s = .next t ∧ Rejected .wrongState s t) ∧
      (s.stat.state = .err → exec i s = .next s) ∧ (s.stat.state = want → exec i s = .next (run s)) :=
  ⟨fun hs he => ⟨_, hexec, rejected_inStream run hs he⟩, fun he => by rw [hexec, inStream_of_err run hw he],
    fun hs => by rw [hexec, inStream_of_eq run hs]⟩

/-! ENC_START -/

theorem exec_encStart (s : State) :
    exec .encStart s = .next { beginStream .enc s with ebuf := 0, ebcnt := 0, ecnt := 0 } := rfl

/-- Settles O26. -/
theorem encStartBeginsAnEncode : Obligations.EncStartBeginsAnEncode := by
  intro s
  refine ⟨_, exec_encStart s, rfl, rfl, rfl, rfl, rfl, rfl, ?frame, fun _ => rfl⟩
  apply frame_of_stream rfl
  case hstat => exact word_keeps_stream s.stat .enc .none
  all_goals simp

/-! ENC_BYTE -/

theorem exec_encByte (b : Byte) (s : State) : exec (.encByte b) s = .next (inStream .enc (encodeByte b) s) := rfl

theorem encodeByte_of_full {b : Byte} (hn : s.ecnt.toNat = maxCnt) : encodeByte b s = streamError .limit s := if_pos hn

theorem encodeByte_of_lane {b : Byte} (hn : s.ecnt.toNat ≠ maxCnt) (hk : s.ebcnt.toNat < 3) :
    encodeByte b s =
      { s with
        ecnt := s.ecnt + 1
        ebuf := s.ebuf ||| byteLane s.ebcnt.toNat b
        ebcnt := BitVec.ofNat 2 (s.ebcnt.toNat + 1) } := by
  obtain ⟨hm, -⟩ | ⟨-, ⟨-, he⟩ | ⟨h3, -⟩⟩ := encodeByte_cases b s
  · exact absurd hm hn
  · exact he
  · omega

/-- The characters of the group that the fourth byte completes decide (R123, R124). -/
theorem encodeByte_of_fourth {b : Byte} (hn : s.ecnt.toNat ≠ maxCnt) (hk : s.ebcnt.toNat = 3) :
    let chars := groupChars s.cfg (s.ebuf ||| b.setWidth 32)
    let s1 := { s with ecnt := s.ecnt + 1 }
    (s.cfg.obufCap < s.olen.toNat + chars.length → encodeByte b s = streamError .limit s1) ∧
      (s.olen.toNat + chars.length ≤ s.cfg.obufCap → encodeByte b s = { append chars s1 with ebuf := 0, ebcnt := 0 }) := by
  obtain ⟨hm, -⟩ | ⟨-, ⟨h3, -⟩ | ⟨-, ⟨hf, he⟩ | ⟨hf, he⟩⟩⟩ := encodeByte_cases b s
  · exact absurd hm hn
  · omega
  · exact ⟨fun _ => he, fun h => absurd hf (Nat.not_lt.2 h)⟩
  · exact ⟨fun h => absurd hf (Nat.not_le.2 h), fun _ => he⟩

theorem succ_toNat_of_lt {n : Counter} (h : n.toNat < 4294967295) : (n + 1).toNat = n.toNat + 1 :=
  counter_add_toNat (k := 1) h

/-- Settles O28: the state check, then the cases of `encodeByte`. -/
theorem encByteTakesOneByte : Obligations.EncByteTakesOneByte := by
  intro b s hcap k chars
  obtain ⟨hrejected, hignored, hrun⟩ := exec_of_stateCheck (exec_encByte b s) nofun
  refine ⟨hrejected, hignored, ?counted, ?lane, ?noRoom, ?room⟩
  case counted =>
    intro hs hn
    refine ⟨_, hrun hs, ?_⟩
    rw [encodeByte_of_full hn]
    exact failed_streamError .limit (fun _ => rfl) (fun _ => rfl)
  case lane =>
    intro hs hn hk
    refine ⟨_, hrun hs, ?_⟩
    rw [encodeByte_of_lane hn.ne hk]
    refine ⟨succ_toNat_of_lt hn, ?_, rfl, ?_, fun _ => rfl⟩
    · rw [BitVec.toNat_ofNat, Nat.mod_eq_of_lt (by omega)]
    · apply frame_of_stream rfl <;> simp
  case noRoom =>
    intro hs hn hk hf
    refine ⟨_, hrun hs, ?_⟩
    rw [(encodeByte_of_fourth hn.ne hk).1 hf]
    exact ⟨succ_toNat_of_lt hn, failed_streamError .limit (by simp) (fun _ => rfl)⟩
  case room =>
    intro hs hn hk hf
    refine ⟨_, hrun hs, ?_⟩
    rw [(encodeByte_of_fourth hn.ne hk).2 hf]
    refine ⟨succ_toNat_of_lt hn, rfl, rfl, append_olen_toNat hcap hf, storedAt_store rfl, ?_⟩
    apply frame_of_stream rfl <;> simp

/-! ENC_END -/

theorem exec_encEnd (s : State) : exec .encEnd s = .next (inStream .enc encodeEnd s) := rfl

theorem encodeEnd_of_whole (hp : (4 - s.ebcnt.toNat) % 4 = 0) : encodeEnd s = finishStream s := if_neg (not_not.2 hp)

theorem encodeEnd_of_no_room (hp : (4 - s.ebcnt.toNat) % 4 ≠ 0)
    (hf : s.cfg.obufCap < s.olen.toNat + (groupChars s.cfg s.ebuf).length) : encodeEnd s = streamError .limit s := by
  obtain ⟨h0, -⟩ | ⟨-, ⟨-, he⟩ | ⟨hr, -⟩⟩ := encodeEnd_cases s
  · exact absurd h0 hp
  · exact he
  · exact absurd hf (Nat.not_lt.2 hr)

/-- The padded group is appended and cut as one update: OLEN counts what stays of it, or less (R126, R11). -/
theorem encodeEnd_of_room (hcap : s.cfg.capacityOk = true) (hp : (4 - s.ebcnt.toNat) % 4 ≠ 0)
    (hf : s.olen.toNat + (groupChars s.cfg s.ebuf).length ≤ s.cfg.obufCap) :
    ∃ n : BitVec 32,
      n.toNat = s.olen.toNat + (groupChars s.cfg s.ebuf).length - (if s.padFinal then 0 else (4 - s.ebcnt.toNat) % 4) ∧
        encodeEnd s = finishStream { append (groupChars s.cfg s.ebuf) s with ebuf := 0, ebcnt := 0, olen := n } := by
  have holen := append_olen_toNat hcap hf
  obtain ⟨h0, -⟩ | ⟨-, ⟨hr, -⟩ | ⟨-, he⟩⟩ := encodeEnd_cases s
  · exact absurd h0 hp
  · exact absurd hf (Nat.not_le.2 hr)
  · rw [he]
    cases s.padFinal with
    | true => exact ⟨_, holen, rfl⟩
    | false =>
      refine ⟨_, ?_, rfl⟩
      rw [BitVec.toNat_ofNat, Nat.mod_eq_of_lt (by omega)]
      exact congrArg (· - (4 - s.ebcnt.toNat) % 4) holen

/-- Settles O29: the state check, then the cases of `encodeEnd`. -/
theorem encEndPadsAndTruncates : Obligations.EncEndPadsAndTruncates := by
  intro s hcap p chars
  obtain ⟨hrejected, hignored, hrun⟩ := exec_of_stateCheck (exec_encEnd s) nofun
  refine ⟨hrejected, hignored, ?whole, ?noRoom, ?room⟩
  case whole =>
    intro hs hp
    refine ⟨_, hrun hs, ?_⟩
    rw [encodeEnd_of_whole hp]
    refine ⟨rfl, ?_, fun _ => rfl⟩
    apply frame_of_stream rfl
    case hstat => exact word_keeps_state s.stat .done
    all_goals exact fun _ => rfl
  case noRoom =>
    intro hs hp hf
    refine ⟨_, hrun hs, ?_⟩
    rw [encodeEnd_of_no_room hp hf]
    exact failed_streamError .limit (fun _ => rfl) (fun _ => rfl)
  case room =>
    intro hs hp hf
    obtain ⟨n, hn, he⟩ := encodeEnd_of_room hcap hp hf
    refine ⟨_, hrun hs, ?_⟩
    rw [he]
    refine ⟨rfl, rfl, rfl, hn, storedAt_store rfl, ?_⟩
    apply frame_of_stream rfl
    case hstat => exact word_keeps_state s.stat .done
    all_goals simp

end Sys2Proof.Machine
end

section
/-! SUPPORT. The run of ENCODE (41_stream_encode R125): what OBUF holds after an append, and the encoder after each byte of an input
as a function of the bytes given so far. -/

namespace Sys2Proof

@[simp] theorem decode_encEnd : decode (encode .encEnd) = .ok .encEnd := decode_encode .encEnd

namespace Machine

variable {s t : State} {c : Config} {pad : Bool} {x : List Byte} {rest : List HostAction}

/-! The output -/

@[simp] theorem output_length (s : State) : (output s).length = s.olen.toNat := by
  rw [output, List.length_map, List.length_range]

/-- The valid bytes after bytes have been stored at OLEN and OLEN set no higher than their end (R11). -/
theorem output_of_store {bs : List Byte} (hobuf : t.obuf = s.obuf.store s.olen.toNat bs)
    (holen : t.olen.toNat ≤ s.olen.toNat + bs.length) : output t = (output s ++ bs.map some).take t.olen.toNat := by
  have hold : (List.range s.olen.toNat).map t.obuf.read = output s :=
    List.map_congr_left fun a ha => by rw [hobuf, read_store_outside _ _ (Or.inl (List.mem_range.1 ha))]
  have hnew : (List.range bs.length).map (fun k => t.obuf.read (s.olen.toNat + k)) = bs.map some := by
    refine List.ext_getElem (by simp) fun k hk _ => ?_
    have hk' : k < bs.length := by simpa using hk
    simp [hobuf, read_store_inside _ _ _ hk', hk']
  calc output t
      = ((List.range (s.olen.toNat + bs.length)).take t.olen.toNat).map t.obuf.read := by
        rw [List.take_range, Nat.min_eq_left holen, output]
    _ = (output s ++ bs.map some).take t.olen.toNat := by
        rw [List.map_take, List.range_add, List.map_append, hold, List.map_map, ← hnew]
        rfl

/-- The bytes of an append that does not wrap OLEN round come after the valid ones (R11). -/
theorem output_append {bs : List Byte} (holen : (append bs s).olen.toNat = s.olen.toNat + bs.length) :
    output (append bs s) = output s ++ bs.map some := by
  have hlen : (output s ++ bs.map some).length = (append bs s).olen.toNat := by
    rw [List.length_append, output_length, List.length_map, holen]
  rw [output_of_store (append_obuf s bs) holen.le, ← hlen, List.take_length]

/-! The encoder after the bytes x -/

/-- The bytes x can be counted, and the characters of their whole groups fit in OBUF (R124). -/
def EncodeFits (c : Config) (x : List Byte) : Prop := x.length ≤ maxCnt ∧ (wholeChars c x).length ≤ c.obufCap

theorem EncodeFits.of_append {y : List Byte} (h : EncodeFits c (x ++ y)) : EncodeFits c x := by
  obtain ⟨hlen, hchars⟩ := h
  rw [List.length_append] at hlen
  rw [wholeChars_append, List.length_append] at hchars
  exact ⟨by omega, by omega⟩

/-- An encode runs and has taken the bytes x: the characters of their whole groups are the output, and the others are held. -/
structure Encoding (c : Config) (x : List Byte) (s : State) : Prop where
  state : s.stat.state = .enc
  err : s.stat.err = .none
  ecnt : s.ecnt.toNat = x.length
  ebcnt : s.ebcnt.toNat = x.length % 4
  ebuf : s.ebuf = zeroFilled (heldBytes x)
  out : output s = (wholeChars c x).map some

/-- A stream operation has ended with LIMIT (R201). -/
structure StoppedAtLimit (s : State) : Prop where
  state : s.stat.state = .err
  err : s.stat.err = .limit
  olen : s.olen = 0

/-- The encoder has been given the bytes x since ENC_START: it goes on where they fit, and has ended with LIMIT where they do not. -/
structure GivenBytes (c : Config) (pad : Bool) (x : List Byte) (s : State) : Prop where
  cfg : s.cfg = c
  padFinal : s.padFinal = pad
  fits : EncodeFits c x → Encoding c x s
  limit : ¬EncodeFits c x → StoppedAtLimit s

theorem stoppedAtLimit_streamError (s : State) : StoppedAtLimit (streamError .limit s) := ⟨rfl, rfl, rfl⟩

theorem Encoding.olen (h : Encoding c x s) : s.olen.toNat = (wholeChars c x).length := by
  rw [← output_length, h.out, List.length_map]

/-- What the host still has to do does not matter to the encoder. -/
theorem GivenBytes.with_pending (h : GivenBytes c pad x s) (rest : List HostAction) :
    GivenBytes c pad x { s with pending := rest } :=
  { h with
    fits := fun hx => { h.fits hx with }
    limit := fun hx => { h.limit hx with } }

/-- R121. -/
theorem givenBytes_encStart (s : State) :
    GivenBytes s.cfg s.padFinal [] { beginStream .enc s with ebuf := 0, ebcnt := 0, ecnt := 0 } where
  cfg := rfl
  padFinal := rfl
  fits := fun _ => ⟨rfl, rfl, rfl, rfl, rfl, rfl⟩
  limit := fun h => absurd ⟨Nat.zero_le _, Nat.zero_le _⟩ h

/-! One more byte -/

/-- The fourth byte of a group goes to its last lane (R122). -/
theorem byteLane_three (b : Byte) : byteLane 3 b = b.setWidth 32 := BitVec.shiftLeft_zero _

theorem wholeChars_append_of_lt (h : x.length % 4 < 3) (b : Byte) : wholeChars c (x ++ [b]) = wholeChars c x := by
  have hlen : (heldBytes x ++ [b]).length < 4 := by
    rw [List.length_append, heldBytes_length, List.length_singleton]
    omega
  rw [wholeChars_append, groupsOf_of_length_lt hlen, List.flatMap_nil, List.append_nil]

theorem wholeChars_append_of_eq (h : x.length % 4 = 3) (b : Byte) :
    wholeChars c (x ++ [b]) = wholeChars c x ++ groupChars c (zeroFilled (heldBytes x) ||| b.setWidth 32) := by
  have hlen : (heldBytes x).length = 3 := by rw [heldBytes_length, h]
  have hgroup : groupsOf (heldBytes x ++ [b]) = [zeroFilled (heldBytes x) ||| b.setWidth 32] := by
    rw [groupsOf_of_length_eq (by rw [List.length_append, hlen]; rfl), zeroFilled_append hlen.le, hlen, byteLane_three]
  rw [wholeChars_append, hgroup, List.flatMap_singleton]

/-- One of the first three bytes of a group is held (R122). -/
theorem encoding_encodeByte_of_lt (h : Encoding c x s) (hn : x.length < maxCnt) (hk : x.length % 4 < 3) (b : Byte) :
    Encoding c (x ++ [b]) (encodeByte b s) := by
  rw [encodeByte_of_lane (by rw [h.ecnt]; exact hn.ne) (by rw [h.ebcnt]; exact hk)]
  constructor
  case state => exact h.state
  case err => exact h.err
  case ecnt => rw [succ_toNat_of_lt (by rw [h.ecnt]; exact hn), h.ecnt, List.length_append, List.length_singleton]
  case ebcnt =>
    rw [BitVec.toNat_ofNat, h.ebcnt, List.length_append, List.length_singleton]
    omega
  case ebuf =>
    have hheld : (heldBytes x).length ≤ 3 := by
      rw [heldBytes_length]
      omega
    rw [heldBytes_append_of_lt hk, zeroFilled_append hheld, heldBytes_length, h.ebuf, h.ebcnt]
  case out => exact (wholeChars_append_of_lt (c := c) hk b).symm ▸ h.out

/-- The fourth byte of a group writes its characters, and no byte is held (R122, R123). -/
theorem encoding_encodeByte_of_eq (h : Encoding s.cfg x s) (hcap : s.cfg.capacityOk = true) (hn : x.length < maxCnt)
    (hk : x.length % 4 = 3) {b : Byte} (hf : (wholeChars s.cfg (x ++ [b])).length ≤ s.cfg.obufCap) :
    Encoding s.cfg (x ++ [b]) (encodeByte b s) := by
  have hchars := wholeChars_append_of_eq (c := s.cfg) hk b
  rw [← h.ebuf] at hchars
  have hroom : s.olen.toNat + (groupChars s.cfg (s.ebuf ||| b.setWidth 32)).length ≤ s.cfg.obufCap := by
    rwa [h.olen, ← List.length_append, ← hchars]
  rw [(encodeByte_of_fourth (by rw [h.ecnt]; exact hn.ne) (by rw [h.ebcnt, hk])).2 hroom]
  constructor
  case state => exact h.state
  case err => exact h.err
  case ecnt =>
    rw [List.length_append, List.length_singleton, ← h.ecnt]
    exact succ_toNat_of_lt (by rw [h.ecnt]; exact hn)
  case ebcnt =>
    rw [List.length_append, List.length_singleton]
    show 0 = _
    omega
  case ebuf => rw [heldBytes_append_of_eq hk]; rfl
  case out =>
    calc output (append (groupChars s.cfg (s.ebuf ||| b.setWidth 32)) { s with ecnt := s.ecnt + 1 })
        = output s ++ (groupChars s.cfg (s.ebuf ||| b.setWidth 32)).map some :=
          output_append (append_olen_toNat hcap hroom)
      _ = (wholeChars s.cfg (x ++ [b])).map some := by rw [h.out, hchars, List.map_append]

/-- Where the input no longer fits with its next byte, that byte ends the encode (R124). -/
theorem stoppedAtLimit_encodeByte (h : Encoding s.cfg x s) {b : Byte} (hx : EncodeFits s.cfg x)
    (hnot : ¬EncodeFits s.cfg (x ++ [b])) : StoppedAtLimit (encodeByte b s) := by
  by_cases hn : s.ecnt.toNat = maxCnt
  · rw [encodeByte_of_full hn]
    exact stoppedAtLimit_streamError s
  · obtain ⟨hlen, hchars⟩ := hx
    have hlen' : (x ++ [b]).length ≤ maxCnt := by
      rw [h.ecnt] at hn
      rw [List.length_append, List.length_singleton]
      omega
    have hk : x.length % 4 = 3 := by
      by_contra hk
      refine hnot ⟨hlen', ?_⟩
      rwa [wholeChars_append_of_lt (by omega) b]
    have hover : s.cfg.obufCap < s.olen.toNat + (groupChars s.cfg (s.ebuf ||| b.setWidth 32)).length := by
      rw [h.olen, h.ebuf, ← List.length_append, ← wholeChars_append_of_eq hk]
      exact Nat.lt_of_not_le fun hle => hnot ⟨hlen', hle⟩
    rw [(encodeByte_of_fourth hn (by rw [h.ebcnt, hk])).1 hover]
    exact stoppedAtLimit_streamError _

/-- A stream command writes neither the configuration, nor PAD_FINAL, nor the host's actions (R67). -/
theorem inStream_keeps {f : State → State} (hf : ConfinedToStream f) (want : StreamState) (s : State) :
    (inStream want f s).cfg = s.cfg ∧ (inStream want f s).padFinal = s.padFinal ∧
      (inStream want f s).pending = s.pending := by
  obtain ⟨-, he⟩ | ⟨-, -, he⟩ | ⟨-, -, he⟩ := inStream_cases want f s <;> rw [he]
  · exact ⟨(hf.frame s).cfg, hf.padFinal_eq s, (hf.frame s).pending⟩
  · exact ⟨rfl, rfl, rfl⟩
  · exact ⟨rfl, rfl, rfl⟩

/-- ENC_BYTE b takes the encoder given x to the encoder given x and b (R122, R124). -/
theorem givenBytes_encByte (hcap : c.capacityOk = true) (h : GivenBytes c pad x s) (b : Byte) :
    GivenBytes c pad (x ++ [b]) (inStream .enc (encodeByte b) s) := by
  obtain ⟨rfl, rfl, hfits, hlimit⟩ := h
  obtain ⟨hcfg, hpad, -⟩ := inStream_keeps (confined_encodeByte b) .enc s
  refine ⟨hcfg, hpad, fun hxb => ?fits, fun hnot => ?limit⟩
  case fits =>
    have he := hfits hxb.of_append
    obtain ⟨hlen, hchars⟩ := hxb
    rw [List.length_append, List.length_singleton] at hlen
    rw [inStream_of_eq _ he.state]
    by_cases hk : x.length % 4 = 3
    · exact encoding_encodeByte_of_eq he hcap hlen hk hchars
    · exact encoding_encodeByte_of_lt he hlen (by omega) b
  case limit =>
    by_cases hx : EncodeFits s.cfg x
    · rw [inStream_of_eq _ (hfits hx).state]
      exact stoppedAtLimit_encodeByte (hfits hx) hx hnot
    · rw [inStream_of_err (want := .enc) _ nofun (hlimit hx).state]
      exact hlimit hx

/-! The end of the input -/

/-- The result of ENCODE x: Encode(x, PAD_FINAL) where the bytes can be counted and the characters fit, and LIMIT elsewhere (R125). -/
structure Encoded (c : Config) (pad : Bool) (x : List Byte) (s : State) : Prop where
  done : x.length ≤ maxCnt ∧ (encodeUntruncated c x).length ≤ c.obufCap →
    s.stat.state = .done ∧ s.stat.err = .none ∧ output s = (encodeAll c x pad).map some
  limit : ¬(x.length ≤ maxCnt ∧ (encodeUntruncated c x).length ≤ c.obufCap) → StoppedAtLimit s

/-- The characters of the whole groups are among those of the padded input (R120). -/
theorem encodeFits_of_untruncated (h : x.length ≤ maxCnt ∧ (encodeUntruncated c x).length ≤ c.obufCap) :
    EncodeFits c x := by
  obtain ⟨hlen, hchars⟩ := h
  rw [encodeUntruncated_eq_wholeChars, zeroPadded, wholeChars_append, List.length_append] at hchars
  exact ⟨hlen, by omega⟩

/-- Where no byte is held, nothing is added and nothing cut (R126). -/
theorem encoded_encodeEnd_of_eq (h : Encoding s.cfg x s) (hx : EncodeFits s.cfg x) (hk : x.length % 4 = 0) :
    Encoded s.cfg s.padFinal x (encodeEnd s) := by
  have hall := encodeUntruncated_of_eq s.cfg hk
  have hp : padCount x.length = 0 := by rw [padCount, hk]
  rw [encodeEnd_of_whole (by rw [h.ebcnt, hk])]
  refine ⟨fun _ => ⟨rfl, h.err, ?_⟩, fun hnot => absurd (hall ▸ hx) hnot⟩
  rw [encodeAll_eq_take, hp, ite_self, Nat.sub_zero, List.take_length, hall]
  exact h.out

/-- Where bytes are held, their group is padded, and p characters are cut off or not (R126). -/
theorem encoded_encodeEnd_of_ne (h : Encoding s.cfg x s) (hcap : s.cfg.capacityOk = true) (hx : EncodeFits s.cfg x)
    (hk : x.length % 4 ≠ 0) : Encoded s.cfg s.padFinal x (encodeEnd s) := by
  have hall := encodeUntruncated_of_ne s.cfg hk
  rw [← h.ebuf] at hall
  have hlen : (encodeUntruncated s.cfg x).length = s.olen.toNat + (groupChars s.cfg s.ebuf).length := by
    rw [hall, List.length_append, h.olen]
  have hp : (4 - s.ebcnt.toNat) % 4 = padCount x.length := by rw [h.ebcnt, padCount]
  have hp0 : (4 - s.ebcnt.toNat) % 4 ≠ 0 := by
    rw [hp, padCount]
    omega
  constructor
  case done =>
    rintro ⟨-, hf⟩
    obtain ⟨n, hn, he⟩ := encodeEnd_of_room hcap hp0 (hlen ▸ hf)
    rw [← hlen, hp] at hn
    rw [he]
    refine ⟨rfl, h.err, ?_⟩
    calc _ = (output s ++ (groupChars s.cfg s.ebuf).map some).take n.toNat :=
          output_of_store rfl (hn.trans_le (hlen ▸ Nat.sub_le _ _))
      _ = (encodeAll s.cfg x s.padFinal).map some := by
          rw [h.out, ← List.map_append, ← hall, ← List.map_take, hn, encodeAll_eq_take]
  case limit =>
    intro hnot
    have hover : s.cfg.obufCap < s.olen.toNat + (groupChars s.cfg s.ebuf).length :=
      hlen ▸ Nat.lt_of_not_le fun hle => hnot ⟨hx.1, hle⟩
    rw [encodeEnd_of_no_room hp0 hover]
    exact stoppedAtLimit_streamError s

/-- ENC_END ends the encode of the bytes given (R126, R124). -/
theorem encoded_encEnd (hcap : c.capacityOk = true) (h : GivenBytes c pad x s) :
    Encoded c pad x (inStream .enc encodeEnd s) := by
  obtain ⟨rfl, rfl, hfits, hlimit⟩ := h
  by_cases hx : EncodeFits s.cfg x
  · have he := hfits hx
    rw [inStream_of_eq _ he.state]
    by_cases hk : x.length % 4 = 0
    · exact encoded_encodeEnd_of_eq he hx hk
    · exact encoded_encodeEnd_of_ne he hcap hx hk
  · rw [inStream_of_err (want := .enc) _ nofun (hlimit hx).state]
    exact ⟨fun hf => absurd (encodeFits_of_untruncated hf) hx, fun _ => hlimit hx⟩

/-! The run -/

/-- A run of m + n steps is a run of m steps and one of n from the state it answers. -/
theorem stepN_add {m : Nat} (h : stepN m s = .next t) (n : Nat) : stepN (m + n) s = stepN n t := by
  induction m generalizing s with
  | zero =>
    obtain rfl := Host.Outcome.next.inj h
    rw [Nat.zero_add]
  | succ m ih =>
    rw [Nat.add_right_comm]
    cases hs : step s with
    | next u =>
      rw [stepN_succ hs] at h ⊢
      exact ih h
    | fault r => simp [stepN, hs] at h
    | refused r => simp [stepN, hs] at h

/-- The run of the ENC_BYTE commands, after ENC_START and the bytes x. -/
theorem stepN_givenBytes (hc : IsInstance c) (bs : List Byte) (h : GivenBytes c pad x s)
    (hp : s.pending = issueAll (bs.map .encByte) ++ rest) :
    ∃ t, stepN bs.length s = .next t ∧ t.pending = rest ∧ GivenBytes c pad (x ++ bs) t := by
  induction bs generalizing x s with
  | nil => exact ⟨s, rfl, hp, by rwa [List.append_nil]⟩
  | cons b bs ih =>
    have hstep := (step_issue (h.cfg.symm ▸ hc) hp (decode_encByte b)).trans (exec_encByte b _)
    obtain ⟨-, -, hpending⟩ :=
      inStream_keeps (confined_encodeByte b) .enc { s with pending := issueAll (bs.map .encByte) ++ rest }
    obtain ⟨t, ht, hrest, hgiven⟩ := ih (givenBytes_encByte hc.2 (h.with_pending _) b) hpending
    exact ⟨t, (stepN_succ hstep _).trans ht, hrest, by rwa [List.append_cons]⟩

/-- The run of ENC_START, the bytes x and ENC_END. -/
theorem stepN_encode (hc : IsInstance s.cfg) (hp : s.pending = issueAll (Pseudo.encode x).expand ++ rest) :
    ∃ t, stepN (x.length + 2) s = .next t ∧ t.pending = rest ∧ Encoded s.cfg s.padFinal x t := by
  have hp' : s.pending = .issue (encode .encStart) :: (issueAll (x.map .encByte) ++ .issue (encode .encEnd) :: rest) := by
    rw [hp]
    simp [Pseudo.expand, issueAll]
  have hstart := (step_issue hc hp' decode_encStart).trans (exec_encStart _)
  obtain ⟨t, ht, hpending, hgiven⟩ := stepN_givenBytes hc x
    (givenBytes_encStart { s with pending := issueAll (x.map .encByte) ++ .issue (encode .encEnd) :: rest }) rfl
  have hend := (step_issue (hgiven.cfg.symm ▸ hc) hpending decode_encEnd).trans (exec_encEnd _)
  obtain ⟨-, -, hrest⟩ := inStream_keeps confined_encodeEnd .enc { t with pending := rest }
  refine ⟨_, ?_, hrest, encoded_encEnd hc.2 (hgiven.with_pending rest)⟩
  calc stepN (x.length + 2) s
      = stepN (x.length + 1) _ := stepN_succ hstart _
    _ = stepN 1 t := stepN_add ht 1
    _ = _ := stepN_succ hend 0

/-- Settles O49: each byte keeps `GivenBytes`, which ENC_START begins, and ENC_END turns it into the result. -/
theorem encodeRunComputesEncode : Obligations.EncodeRunComputesEncode := by
  intro x s rest hc hp
  obtain ⟨t, ht, hrest, hdone, hlimit⟩ := stepN_encode hc hp
  refine ⟨t, ht, hrest, hdone, fun hnot => ?_⟩
  obtain ⟨hstate, herr, holen⟩ := hlimit hnot
  exact ⟨hstate, herr, holen⟩

/-- Settles O54: no byte has no character, so the run of ENCODE [] cannot end with LIMIT and has no output. -/
theorem emptyEncodeIsEmpty : Obligations.EmptyEncodeIsEmpty := by
  intro s rest hc hp
  obtain ⟨t, ht, hrest, hencoded⟩ := stepN_encode hc hp
  obtain ⟨hstate, -, hout⟩ := hencoded.done ⟨Nat.zero_le _, Nat.zero_le _⟩
  have holen : t.olen.toNat = 0 := by
    rw [← output_length, hout]
    rfl
  exact ⟨t, ht, hrest, hstate, BitVec.eq_of_toNat_eq holen⟩

end Machine

end Sys2Proof
end

section
/-! SUPPORT. What DEC_START, DEC_CHAR and DEC_END do in every state (42_stream_decode R141, R142, R145; 30_encoding R75). -/

namespace Sys2Proof.Machine

open Sys2Proof

variable {s : State}

/-- The four bytes of a group, each as a number (R11, R57). -/
theorem be4_eq (g : Group) : be4 g =
    [BitVec.ofNat 8 (g.toNat / 2 ^ 24), BitVec.ofNat 8 (g.toNat / 2 ^ 16), BitVec.ofNat 8 (g.toNat / 2 ^ 8),
      BitVec.ofNat 8 g.toNat] := by
  have h := be4_ofNat g.toNat
  rwa [BitVec.ofNat_toNat, BitVec.setWidth_eq] at h

/-- n synthetic digits folded in at once (R145). -/
theorem foldPad_eq (n acc : Nat) : foldPad n acc = acc * 85 ^ n + (85 ^ n - 1) := by
  induction n generalizing acc with
  | zero => simp [foldPad]
  | succ n ih =>
    have hpos : 0 < 85 ^ n := Nat.pow_pos (by decide)
    rw [foldPad, ih, fold, Nat.pow_succ]
    grind

/-! DEC_START -/

theorem exec_decStart (s : State) :
    exec .decStart s = .next { beginStream .dec s with acc := 0, dcnt := 0, lcnt := 0 } := rfl

/-- Settles O30. -/
theorem decStartBeginsADecode : Obligations.DecStartBeginsADecode := by
  intro s
  refine ⟨_, exec_decStart s, rfl, rfl, rfl, rfl, rfl, rfl, ?frame, fun _ => rfl⟩
  apply frame_of_stream rfl
  case hstat => exact word_keeps_stream s.stat .dec .none
  all_goals simp

/-! DEC_CHAR -/

theorem exec_decChar (ch : Byte) (s : State) : exec (.decChar ch) s = .next (inStream .dec (decodeChar ch) s) := rfl

theorem decodeChar_of_digit {ch : Byte} {d : Nat} (h : s.cfg.charMap ch = some d) : decodeChar ch s = decodeDigit d s := by
  rw [decodeChar, h]

theorem decodeChar_of_exception {ch : Byte} {g : Group} (h : s.cfg.charMap ch = none) (hg : s.cfg.excKey ch = some g) :
    decodeChar ch s = decodeException g s := by
  rw [decodeChar, h, hg]

theorem decodeChar_of_unknown {ch : Byte} (h : s.cfg.charMap ch = none) (hg : s.cfg.excKey ch = none) :
    decodeChar ch s = streamError .unrecognizedChar s := by
  rw [decodeChar, h, hg]

/-- Settles O31: the state check, then the last branch of `decodeChar`. -/
theorem decCharStateCheckAndUnknownCharacter : Obligations.DecCharStateCheckAndUnknownCharacter := by
  intro c s
  obtain ⟨hrejected, hignored, hrun⟩ := exec_of_stateCheck (exec_decChar c s) nofun
  refine ⟨hrejected, hignored, fun hs hmap hkey => ⟨_, hrun hs, ?_⟩⟩
  rw [decodeChar_of_unknown hmap hkey]
  exact failed_streamError .unrecognizedChar (fun _ => rfl) (fun _ => rfl)

/-- Settles O32: each case of `decodeDigit_cases` meets the hypotheses of one clause and contradicts those of the others. -/
theorem decCharFoldsADigit : Obligations.DecCharFoldsADigit := by
  intro c d s hcap hs hmap v j bytes
  have hrun : exec (.decChar c) s = .next (decodeDigit d s) := by
    rw [exec_decChar, inStream_of_eq _ hs, decodeChar_of_digit hmap]
  rw [hrun]
  obtain ⟨hn, he⟩ | ⟨hn, hcases⟩ := decodeDigit_cases d s
  · have hn : ¬s.lcnt.toNat < 4294967295 := Nat.not_lt.2 (Nat.le_of_lt_succ hn)
    rw [he]
    exact ⟨fun _ => ⟨_, rfl, failed_streamError .limit (fun _ => rfl) (fun _ => rfl)⟩, fun h => absurd h hn,
      fun h => absurd h hn, fun h => absurd h hn, fun h => absurd h hn⟩
  refine ⟨fun h => absurd h (Nat.ne_of_lt hn), ?_⟩
  have hlcnt := succ_toNat_of_lt hn
  obtain ⟨hj, he⟩ | ⟨hj, hcases⟩ := hcases
  · have hj5 : j ≠ 5 := fun h => hj (Nat.succ.inj h)
    rw [he]
    refine ⟨fun _ _ => ⟨_, rfl, hlcnt, BitVec.toNat_ofNat _ _, BitVec.toNat_ofNat _ _, ?frame, fun _ => rfl⟩,
      fun _ h => absurd h hj5, fun _ h => absurd h hj5, fun _ h => absurd h hj5⟩
    apply frame_of_stream rfl <;> simp
  have hj5 : j = 5 := congrArg Nat.succ hj
  refine ⟨fun _ h => absurd hj5 h, ?_⟩
  obtain ⟨hg, he⟩ | ⟨g, hg, hcases⟩ := hcases
  · have hv : 4294967295 < v := decGroup_none.1 hg
    rw [he]
    exact ⟨fun _ _ _ => ⟨_, rfl, hlcnt, failed_streamError .overflow (fun _ => rfl) (by simp)⟩,
      fun _ _ h => absurd hv (Nat.not_lt.2 h), fun _ _ h => absurd hv (Nat.not_lt.2 h)⟩
  obtain ⟨hv, hgv⟩ := decGroup_some hg
  refine ⟨fun _ _ h => absurd h (Nat.not_lt.2 hv), ?_⟩
  obtain ⟨hf, he⟩ | ⟨hf, he⟩ := hcases
  · rw [he]
    exact ⟨fun _ _ _ _ => ⟨_, rfl, hlcnt, failed_streamError .limit (fun _ => rfl) (by simp)⟩,
      fun _ _ _ h => absurd hf (Nat.not_lt.2 h)⟩
  · have hbytes : be4 g = bytes := by rw [be4_eq, hgv]; rfl
    rw [he]
    refine ⟨fun _ _ _ h => absurd hf (Nat.not_le.2 h), fun _ _ _ _ =>
      ⟨_, rfl, hlcnt, rfl, rfl, append_olen_toNat (bs := be4 g) hcap hf, hbytes ▸ storedAt_store rfl, ?groupFrame⟩⟩
    apply frame_of_stream rfl <;> simp

/-- Settles O33: each case of `decodeException_cases` meets the hypotheses of one clause and contradicts those of the others. -/
theorem decCharExpandsAnException : Obligations.DecCharExpandsAnException := by
  intro c g s hcap hs hmap hkey bytes
  have hrun : exec (.decChar c) s = .next (decodeException g s) := by
    rw [exec_decChar, inStream_of_eq _ hs, decodeChar_of_exception hmap hkey]
  have hfailed (e : StreamErr) : Failed e [] s (streamError e s) := failed_streamError e (fun _ => rfl) (fun _ => rfl)
  rw [hrun]
  obtain ⟨hj, he⟩ | ⟨hj, ⟨hn, he⟩ | ⟨hn, ⟨hf, he⟩ | ⟨hf, he⟩⟩⟩ := decodeException_cases g s <;> rw [he]
  · exact ⟨fun _ => ⟨_, rfl, hfailed _⟩, fun h => absurd h hj, fun h => absurd h hj, fun h => absurd h hj⟩
  · exact ⟨fun h => absurd hj h, fun _ _ => ⟨_, rfl, hfailed _⟩, fun _ h => absurd hn (Nat.not_lt.2 h),
      fun _ h => absurd hn (Nat.not_lt.2 h)⟩
  · exact ⟨fun h => absurd hj h, fun _ h => absurd hn (Nat.not_le.2 h), fun _ _ _ => ⟨_, rfl, hfailed _⟩,
      fun _ _ h => absurd hf (Nat.not_lt.2 h)⟩
  · have hbytes : be4 g = bytes := be4_eq g
    refine ⟨fun h => absurd hj h, fun _ h => absurd hn (Nat.not_le.2 h), fun _ _ h => absurd hf (Nat.not_le.2 h), fun _ _ _ =>
      ⟨_, rfl, counter_add_toNat hn, append_olen_toNat (bs := be4 g) hcap hf, hbytes ▸ storedAt_store rfl, ?frame⟩⟩
    apply frame_of_stream rfl <;> simp

/-! DEC_END -/

theorem exec_decEnd (s : State) : exec .decEnd s = .next (inStream .dec decodeEnd s) := rfl

/-- A stream that is cut off or not and then finished is one update of OLEN and STATE (R11, R145). -/
theorem finishStream_ite_truncate (pad : Bool) (p : Nat) (s : State) :
    ∃ n : BitVec 32, n.toNat = s.olen.toNat - (if pad then 0 else p) ∧
      finishStream (if pad = false then truncate p s else s) = finishStream { s with olen := n } := by
  cases pad with
  | true => exact ⟨s.olen, rfl, rfl⟩
  | false => exact ⟨_, Nat.mod_eq_of_lt ((Nat.sub_le _ _).trans_lt s.olen.isLt), rfl⟩

/-- The completed quintet is appended and cut as one update: OLEN counts what stays of it, or less (R145, R11). -/
theorem decodeEnd_of_room {g : Group} (hcap : s.cfg.capacityOk = true) (hr : s.lcnt.toNat % 5 ≠ 0)
    (hg : decGroup (foldPad (5 - s.lcnt.toNat % 5) s.acc.toNat) = some g) (hf : s.olen.toNat + 4 ≤ s.cfg.obufCap) :
    ∃ n : BitVec 32,
      n.toNat = s.olen.toNat + 4 - (if s.padFinal then 0 else 5 - s.lcnt.toNat % 5) ∧
        decodeEnd s = finishStream { append (be4 g) s with acc := 0, dcnt := 0, olen := n } := by
  obtain ⟨h0, -⟩ | ⟨-, ⟨hnone, -⟩ | ⟨g', hsome, ⟨hno, -⟩ | ⟨-, he⟩⟩⟩ := decodeEnd_cases s
  · exact absurd h0 hr
  · exact absurd (hg.symm.trans hnone) nofun
  · exact absurd hf (Nat.not_le.2 hno)
  · obtain rfl := Option.some.inj (hg.symm.trans hsome)
    obtain ⟨n, hn, hfinish⟩ :=
      finishStream_ite_truncate s.padFinal (5 - s.lcnt.toNat % 5) { append (be4 g) s with acc := 0, dcnt := 0 }
    refine ⟨n, ?_, he.trans hfinish⟩
    rw [hn]
    exact congrArg (· - _) (append_olen_toNat (bs := be4 g) hcap hf)

/-- Settles O34: the state check, then each case of `decodeEnd_cases` meets the hypotheses of one clause. -/
theorem decEndCompletesTheQuintet : Obligations.DecEndCompletesTheQuintet := by
  intro s hcap r p v bytes
  obtain ⟨hrejected, hignored, hrun⟩ := exec_of_stateCheck (exec_decEnd s) nofun
  refine ⟨hrejected, hignored, ?_⟩
  have hfailed (e : StreamErr) : Failed e [] s (streamError e s) := failed_streamError e (fun _ => rfl) (fun _ => rfl)
  have hv : foldPad p s.acc.toNat = v := foldPad_eq p s.acc.toNat
  obtain ⟨hr, he⟩ | ⟨hr, hcases⟩ := decodeEnd_cases s
  · rw [he] at hrun
    refine ⟨fun hs _ => ⟨_, hrun hs, rfl, ?frame, fun _ => rfl⟩, fun _ h => absurd hr h, fun _ h => absurd hr h,
      fun _ h => absurd hr h⟩
    apply frame_of_stream rfl
    case hstat => exact word_keeps_state s.stat .done
    all_goals exact fun _ => rfl
  refine ⟨fun _ h => absurd h hr, ?_⟩
  obtain ⟨hg, he⟩ | ⟨g, hg, hcases⟩ := hcases
  · have hover : 4294967295 < v := hv ▸ decGroup_none.1 hg
    rw [he] at hrun
    exact ⟨fun hs _ _ => ⟨_, hrun hs, hfailed _⟩, fun _ _ h => absurd hover (Nat.not_lt.2 h),
      fun _ _ h => absurd hover (Nat.not_lt.2 h)⟩
  obtain ⟨hle, hgv⟩ := decGroup_some hg
  refine ⟨fun _ _ h => absurd (hv ▸ hle) (Nat.not_le.2 h), ?_⟩
  obtain ⟨hf, he⟩ | ⟨hf, -⟩ := hcases
  · rw [he] at hrun
    exact ⟨fun hs _ _ _ => ⟨_, hrun hs, hfailed _⟩, fun _ _ _ h => absurd hf (Nat.not_lt.2 h)⟩
  · obtain ⟨n, hn, he⟩ := decodeEnd_of_room hcap hr hg hf
    have hbytes : be4 g = bytes := by rw [be4_eq, hgv, hv]
    rw [he] at hrun
    refine ⟨fun _ _ _ h => absurd hf (Nat.not_le.2 h), fun hs _ _ _ =>
      ⟨_, hrun hs, rfl, rfl, rfl, hn, hbytes ▸ storedAt_store rfl, ?groupFrame⟩⟩
    apply frame_of_stream rfl
    case hstat => exact word_keeps_state s.stat .done
    all_goals simp

end Sys2Proof.Machine
end

section
/-! SUPPORT. The algorithm of R140 step by step (42_stream_decode R140, R145, R147): one character, a sequence, the end of the input,
and that it gives an input back from the characters the encoder makes of it. -/

namespace Sys2Proof

variable {c : Config} {g : Group} {ch : Byte}

/-- Under CONFIG_OK no exception character is a digit (R7). -/
theorem charMap_of_excChr (hc : c.configOk = true) (h : c.excChr g = some ch) : c.charMap ch = none := by
  obtain ⟨-, -, -, -, hout⟩ := (Config.configOk_iff c).1 hc
  exact charMap_none_iff.2 (hout _ (excChr_some h))

/-- Under CONFIG_OK an exception character has one key (R7, R12). -/
theorem excKey_of_excChr (hc : c.configOk = true) (h : c.excChr g = some ch) : c.excKey ch = some g := by
  obtain ⟨-, -, -, hchrs, -⟩ := (Config.configOk_iff c).1 hc
  have hmem := excChr_some h
  cases hkey : c.excKey ch with
  | none =>
    rw [Config.excKey, Option.map_eq_none_iff, List.find?_eq_none] at hkey
    exact absurd (beq_self_eq_true ch) (hkey _ hmem)
  | some k => exact congrArg (some ·.key) (List.inj_on_of_nodup_map hchrs (excKey_some hkey) hmem rfl)

namespace Machine

/-! One character -/

variable {v : Scan} {d : Nat}

theorem scanChar_of_inner (hd : c.charMap ch = some d) (hj : v.j ≠ 4) :
    scanChar c ch v = .ok { v with group := fold v.group d, j := v.j + 1 } := by
  have hj5 : v.j + 1 ≠ 5 := fun h => hj (Nat.succ.inj h)
  rw [scanChar, hd]
  exact if_neg hj5

/-- The fifth digit completes a quintet (R140 step 3). -/
theorem scanChar_of_fifth (hd : c.charMap ch = some d) (hj : v.j = 4) :
    (decGroup (fold v.group d) = none → scanChar c ch v = .error .overflow) ∧
      ∀ g, decGroup (fold v.group d) = some g →
        scanChar c ch v = .ok { v with group := 0, j := 0, out := v.out ++ be4 g } := by
  have hj5 : v.j + 1 = 5 := congrArg Nat.succ hj
  constructor
  · intro hg
    rw [fold] at hg
    simp only [scanChar, hd, if_pos hj5, hg]
  · intro g hg
    rw [fold] at hg
    simp only [scanChar, hd, if_pos hj5, hg]

theorem scanChar_of_exception (hd : c.charMap ch = none) (hg : c.excKey ch = some g) :
    scanChar c ch v =
      if v.j ≠ 0 then .error .misplacedException else .ok { v with out := v.out ++ be4 g, length := v.length + 4 } := by
  rw [scanChar, hd, hg]

theorem scanChar_of_unknown (hd : c.charMap ch = none) (hg : c.excKey ch = none) :
    scanChar c ch v = .error .unrecognizedChar := by
  rw [scanChar, hd, hg]

/-! A sequence -/

theorem scanAll_cons (c : Config) (ch : Byte) (chs : List Byte) (v : Scan) :
    scanAll c (ch :: chs) v = scanChar c ch v >>= scanAll c chs := by
  rw [scanAll]
  cases scanChar c ch v <;> rfl

theorem scanAll_append (c : Config) (chs chs' : List Byte) (v : Scan) :
    scanAll c (chs ++ chs') v = scanAll c chs v >>= scanAll c chs' := by
  induction chs generalizing v with
  | nil => rfl
  | cons ch chs ih =>
    rw [List.cons_append, scanAll_cons, scanAll_cons]
    cases scanChar c ch v with
    | error e => rfl
    | ok v' => exact ih v'

/-- The variables of R140 before its scan, for an input of n characters (step 2). -/
def scanStart (n : Nat) : Scan := ⟨0, 0, n, []⟩

/-- The empty input needs no step of its own: nothing is scanned, and nothing is missing (R140 step 1). -/
theorem decodeAll_eq_bind (c : Config) (chs : List Byte) (pad : Bool) :
    decodeAll c chs pad = scanAll c chs (scanStart chs.length) >>= (finishScan · pad) := by
  cases chs with
  | nil => rfl
  | cons ch chs =>
    rw [decodeAll, if_neg (List.cons_ne_nil ch chs), scanStart]
    cases scanAll c (ch :: chs) ⟨0, 0, (ch :: chs).length, []⟩ <;> rfl

/-- Digits that complete no quintet are folded (R140 step 3). -/
theorem scanAll_digits {chs : List Byte} {ds : List Nat} (h : List.Forall₂ (fun ch d => c.charMap ch = some d) chs ds)
    (hj : v.j + chs.length < 5) : scanAll c chs v = .ok { v with group := ds.foldl fold v.group, j := v.j + chs.length } := by
  induction h generalizing v with
  | nil => rfl
  | @cons ch d chs ds hd _ ih =>
    rw [List.length_cons] at hj
    rw [scanAll_cons, scanChar_of_inner hd (by omega)]
    refine (ih (v := { v with group := fold v.group d, j := v.j + 1 }) (by simp only; omega)).trans ?_
    rw [List.foldl_cons, List.length_cons, Nat.add_right_comm, Nat.add_assoc]

/-! The end of the input -/

theorem finishScan_of_whole (hr : v.length % 5 = 0) (pad : Bool) : finishScan v pad = .ok v.out := if_neg (not_not.2 hr)

/-- Where p digits are missing in the last quintet, p digits 84 complete it, or overflow (R140 step 4). -/
theorem finishScan_of_overflow {p : Nat} (hp : p < 5) (hr : v.length % 5 + p = 5) (hg : decGroup (foldPad p v.group) = none)
    (pad : Bool) : finishScan v pad = .error .overflow := by
  obtain rfl : p = 5 - v.length % 5 := Nat.eq_sub_of_add_eq' hr
  have hne : v.length % 5 ≠ 0 := by omega
  simp only [finishScan, if_pos hne, hg]

/-- Step 5 of R140 in both its cases: the first bytes are kept, all of them where PAD is 1. -/
theorem finishScan_of_group {p : Nat} (hp : p < 5) (hr : v.length % 5 + p = 5) (hg : decGroup (foldPad p v.group) = some g)
    (pad : Bool) :
    finishScan v pad = .ok ((v.out ++ be4 g).take ((v.out ++ be4 g).length - if pad then 0 else p)) := by
  obtain rfl : p = 5 - v.length % 5 := Nat.eq_sub_of_add_eq' hr
  have hne : v.length % 5 ≠ 0 := by omega
  simp only [finishScan, if_pos hne, hg]
  cases pad with
  | true => simp
  | false => rfl

/-- Settles O56: four digits 84 after the digit d make (d + 1) * 85^4 - 1, which is at most 2^32 - 1 exactly up to d = 81, and all
four bytes are cut off. -/
theorem oneLeftoverDigit : Obligations.OneLeftoverDigit := by
  intro c ch d hd
  have hscan : scanAll c [ch] (scanStart 1) = .ok ⟨d, 1, 1, []⟩ := by
    rw [scanAll_cons, scanChar_of_inner hd (by decide), scanStart, fold, Nat.zero_mul, Nat.zero_add]
    rfl
  have hdecode : decodeAll c [ch] false = finishScan ⟨d, 1, 1, []⟩ false := by
    rw [decodeAll_eq_bind, List.length_singleton, hscan]
    rfl
  have hvalue : foldPad 4 d = d * 52200625 + 52200624 := foldPad_eq 4 d
  rw [hdecode]
  constructor
  · intro hle
    have hg : decGroup (foldPad 4 d) = some (BitVec.ofNat 32 (foldPad 4 d)) :=
      decGroup_of_le (by rw [hvalue, maxGroup]; omega)
    exact finishScan_of_group (v := ⟨d, 1, 1, []⟩) (by decide) rfl hg false
  · intro hle
    have hg : decGroup (foldPad 4 d) = none := decGroup_none.2 (by rw [hvalue, maxGroup]; omega)
    exact finishScan_of_overflow (by decide) rfl hg false

/-! The characters of whole groups -/

variable {l : Nat} {out : List Byte}

/-- The five characters of a group are a quintet that completes to it (R105). -/
theorem scanAll_encGroup (hc : c.configOk = true) (g : Group) :
    scanAll c (encGroup c g) ⟨0, 0, l, out⟩ = .ok ⟨0, 0, l, out ++ be4 g⟩ := by
  have hsplit : encGroup c g = (encGroup c g).take 4 ++ [c.alpha (digit g 4)] := rfl
  have hdigits := forall₂_charMap_encGroup hc g
  have hlast : c.charMap (c.alpha (digit g 4)) = some (digit g 4) := by
    simpa [encGroup, encDigits] using List.forall₂_drop 4 hdigits
  have hvalue : fold (((encDigits g).take 4).foldl fold 0) (digit g 4) = g.toNat := foldl_fold_encDigits g
  rw [hsplit, scanAll_append, scanAll_digits (List.forall₂_take 4 hdigits) (by simp)]
  show scanAll c [_] _ = _
  rw [scanAll_cons, (scanChar_of_fifth hlast rfl).2 g (by rw [hvalue, decGroup_toNat])]
  rfl

/-- The character of an exception counts for five (R140 step 3). -/
theorem scanAll_groupChars (hc : c.configOk = true) (g : Group) :
    scanAll c (groupChars c g) ⟨0, 0, l, out⟩ =
      .ok ⟨0, 0, l + (if (c.excChr g).isSome then 4 else 0), out ++ be4 g⟩ := by
  cases h : c.excChr g with
  | none => exact groupChars_of_no_excChr h ▸ scanAll_encGroup hc g
  | some ch =>
    rw [groupChars_of_excChr h, scanAll_cons, scanChar_of_exception (charMap_of_excChr hc h) (excKey_of_excChr hc h)]
    rfl

theorem scanAll_flatMap_groupChars (hc : c.configOk = true) (gs : List Group) :
    scanAll c (gs.flatMap (groupChars c)) ⟨0, 0, l, out⟩ =
      .ok ⟨0, 0, l + 4 * (gs.filter fun g => (c.excChr g).isSome).length, out ++ gs.flatMap be4⟩ := by
  induction gs generalizing l out with
  | nil => simp [scanAll]
  | cons g gs ih =>
    rw [List.flatMap_cons, scanAll_append, scanAll_groupChars hc]
    refine ih.trans ?_
    rw [List.flatMap_cons, List.append_assoc, List.filter_cons]
    split
    · rw [List.length_cons, Nat.mul_succ, Nat.add_assoc, Nat.add_comm 4]
    · rw [Nat.add_zero]

/-- The bytes of the whole groups of x, and then those it leaves held, are x (R56, R57). -/
theorem flatMap_be4_groupsOf (x : List Byte) : (groupsOf x).flatMap be4 ++ heldBytes x = x := by
  induction x using groupsOf.induct with
  | case1 b0 b1 b2 b3 rest ih =>
    rw [groupsOf, List.flatMap_cons, be4_beGroup, heldBytes_cons₄, List.append_assoc, ih]
    rfl
  | case2 r hr =>
    have hlt := length_lt_of_no_group hr
    rw [groupsOf_of_length_lt hlt, heldBytes_of_length_lt hlt, List.flatMap_nil, List.nil_append]

/-- The scan of an input that begins with the characters of x's whole groups goes on after them with no digit held, and as many
characters more are counted as make five for each group. -/
theorem scanAll_wholeChars_append (hc : c.configOk = true) (x chs : List Byte) :
    scanAll c (wholeChars c x ++ chs) (scanStart (wholeChars c x ++ chs).length) =
      scanAll c chs ⟨0, 0, 5 * (x.length / 4) + chs.length, (groupsOf x).flatMap be4⟩ := by
  have hlen := length_flatMap_groupChars c (groupsOf x)
  rw [scanAll_append, scanStart, wholeChars, scanAll_flatMap_groupChars hc, List.length_append, Nat.add_right_comm, hlen,
    groupsOf_length, List.nil_append]
  rfl

/-- The characters of whole groups decode to them, whatever PAD is (R147). -/
theorem decodeAll_wholeChars (hc : c.configOk = true) {x : List Byte} (h : x.length % 4 = 0) (pad : Bool) :
    decodeAll c (wholeChars c x) pad = .ok x := by
  have hscan := scanAll_wholeChars_append hc x []
  have hheld : heldBytes x = [] := by rw [← List.length_eq_zero_iff, heldBytes_length, h]
  have hbytes := flatMap_be4_groupsOf x
  rw [List.append_nil] at hscan
  rw [hheld, List.append_nil] at hbytes
  rw [decodeAll_eq_bind, hscan, hbytes]
  exact finishScan_of_whole (by simp) pad

/-! The characters of a padded group -/

/-- The first k digits of a group have the value of the group without its last digits (R100). -/
theorem foldl_fold_take_encDigits (g : Group) {k : Nat} (hk : k ≤ 5) :
    ((encDigits g).take k).foldl fold 0 = g.toNat / 85 ^ (5 - k) := by
  have hg := g.isLt
  rw [encDigits_eq]
  interval_cases k <;> simp [fold] <;> omega

/-- The last p digits of a group put in the place of digits 84 raise it by less than 85^p, and so by less than 256^p: no byte above
the last p is changed (R147). -/
theorem foldPad_div {g : Group} {p : Nat} (hp : p ≤ 3) (hzero : g.toNat % 2 ^ (8 * p) = 0) :
    foldPad p (g.toNat / 85 ^ p) ≤ maxGroup ∧ foldPad p (g.toNat / 85 ^ p) / 2 ^ (8 * p) = g.toNat / 2 ^ (8 * p) := by
  have hg := g.isLt
  rw [foldPad_eq, maxGroup]
  interval_cases p <;> omega

/-- The first bytes of a group are its value without the last p bytes (R57). -/
theorem take_be4_eq {g g' : Group} {p : Nat} (hp : p ≤ 3) (h : g.toNat / 2 ^ (8 * p) = g'.toNat / 2 ^ (8 * p)) :
    (be4 g).take (4 - p) = (be4 g').take (4 - p) := by
  have hbyte {lo : Nat} (hlo : 8 * p ≤ lo) : g.extractLsb' lo 8 = g'.extractLsb' lo 8 := by
    apply BitVec.eq_of_toNat_eq
    rw [field_toNat, field_toNat, ← Nat.add_sub_of_le hlo, Nat.pow_add, ← Nat.div_div_eq_div_mul, h, Nat.div_div_eq_div_mul]
  interval_cases p <;> simp [be4, hbyte]

theorem take_be4_zeroFilled {r : List Byte} (h : r.length ≤ 3) : (be4 (zeroFilled r)).take r.length = r := by
  rw [zeroFilled, be4_beGroup]
  match r, h with
  | [], _ | [_], _ | [_, _], _ | [_, _, _], _ => rfl

/-- Cutting p off the end of two lists, the second no shorter than p, cuts the second. -/
theorem take_append_length_sub {α : Type} (l₁ l₂ : List α) {p : Nat} (h : p ≤ l₂.length) :
    (l₁ ++ l₂).take ((l₁ ++ l₂).length - p) = l₁ ++ l₂.take (l₂.length - p) := by
  rw [List.length_append, Nat.add_sub_assoc h, List.take_length_add_append]

variable {x : List Byte}

/-- Of the five characters of the padded group the first are kept (R120 step 4, R128). -/
theorem encodeAll_of_ne (h : x.length % 4 ≠ 0) (hexc : c.excChr (zeroFilled (heldBytes x)) = none) :
    encodeAll c x false = wholeChars c x ++ (encGroup c (zeroFilled (heldBytes x))).take (5 - padCount x.length) := by
  have hp : padCount x.length ≤ 5 := by
    rw [padCount]
    omega
  rw [encodeAll_eq_take, encodeUntruncated_of_ne c h, groupChars_of_no_excChr hexc]
  exact take_append_length_sub _ _ hp

/-- The scan of the characters kept of a padded group leaves them folded, as many as are not missing in the quintet. -/
theorem scanAll_encodeAll_of_ne (hc : c.configOk = true) (h : x.length % 4 ≠ 0)
    (hexc : c.excChr (zeroFilled (heldBytes x)) = none) :
    scanAll c (encodeAll c x false) (scanStart (encodeAll c x false).length) =
      .ok ⟨(zeroFilled (heldBytes x)).toNat / 85 ^ padCount x.length, 5 - padCount x.length,
        5 * (x.length / 4) + (5 - padCount x.length), (groupsOf x).flatMap be4⟩ := by
  have hp : 0 < padCount x.length ∧ padCount x.length ≤ 5 := by
    rw [padCount]
    omega
  have hlen : ((encGroup c (zeroFilled (heldBytes x))).take (5 - padCount x.length)).length = 5 - padCount x.length := by
    rw [List.length_take, encGroup_length]
    omega
  rw [encodeAll_of_ne h hexc, scanAll_wholeChars_append hc,
    scanAll_digits (List.forall₂_take _ (forall₂_charMap_encGroup hc _)) (by simp only [hlen]; omega), hlen,
    foldl_fold_take_encDigits _ (Nat.sub_le _ _), Nat.sub_sub_self hp.2, Nat.zero_add]

/-- The characters kept of a padded group are completed to a quintet whose first bytes are those padded (R147). -/
theorem decodeAll_encodeAll_of_ne (hc : c.configOk = true) (h : x.length % 4 ≠ 0)
    (hexc : c.excChr (zeroFilled (heldBytes x)) = none) : decodeAll c (encodeAll c x false) false = .ok x := by
  have hheld : (heldBytes x).length = 4 - padCount x.length := by
    rw [heldBytes_length, padCount]
    omega
  have hp : 0 < padCount x.length ∧ padCount x.length ≤ 3 := by
    rw [padCount]
    omega
  rw [decodeAll_eq_bind, scanAll_encodeAll_of_ne hc h hexc]
  generalize padCount x.length = p at hheld hp
  obtain ⟨hp0, hp3⟩ := hp
  have hzero : (zeroFilled (heldBytes x)).toNat % 2 ^ (8 * p) = 0 := by
    have hmod := zeroFilled_mod (r := heldBytes x) (by omega)
    rwa [hheld, show 32 - 8 * (4 - p) = 8 * p by omega] at hmod
  obtain ⟨hle, htop⟩ := foldPad_div hp3 hzero
  have hg := decGroup_of_le hle
  have hcut : (be4 (BitVec.ofNat 32 (foldPad p ((zeroFilled (heldBytes x)).toNat / 85 ^ p)))).take (4 - p) = heldBytes x := by
    have htake := take_be4_zeroFilled (r := heldBytes x) (by omega)
    rw [hheld] at htake
    exact (take_be4_eq hp3 (by rw [(decGroup_some hg).2, htop])).trans htake
  calc finishScan _ false
      = .ok (((groupsOf x).flatMap be4 ++ be4 _).take (((groupsOf x).flatMap be4 ++ be4 _).length - p)) :=
        finishScan_of_group (by omega) (by simp only; omega) hg false
    _ = .ok ((groupsOf x).flatMap be4 ++ (be4 _).take (4 - p)) := by rw [take_append_length_sub _ _ (by simp; omega), be4_length]
    _ = .ok x := by rw [hcut, flatMap_be4_groupsOf]

/-- Settles O51: whole groups decode to themselves, and so does a padded input; cut off, its last group is completed again. -/
theorem decodeInvertsEncode : Obligations.DecodeInvertsEncode := by
  intro c x hc hlast
  have hpadded : (zeroPadded x).length % 4 = 0 := by
    rw [zeroPadded, List.length_append, List.length_replicate, padCount]
    omega
  constructor
  · by_cases hr : x.length % 4 = 0
    · have hall : encodeAll c x false = wholeChars c x := by
        rw [encodeAll, padCount, hr, if_neg (by simp), encodeUntruncated_of_eq c hr]
      rw [hall, decodeAll_wholeChars hc hr]
    · refine decodeAll_encodeAll_of_ne hc hr (hlast.resolve_left hr _ ?_)
      rw [groupsOf_zeroPadded_of_ne hr, List.getLast?_concat]
  · have hall : encodeAll c x true = wholeChars c (zeroPadded x) := if_neg nofun
    rw [hall, decodeAll_wholeChars hc hpadded]
    rfl

end Machine

end Sys2Proof
end

section
/-! SUPPORT. The run of DECODE (42_stream_decode R146): the decoder after each character of an input is in the state in which R140's
scan is, or has ended with its failure, or with LIMIT. -/

namespace Sys2Proof.Machine

open Sys2Proof

variable {α : Type} {s t : State} {c : Config} {pad : Bool} {N n d : Nat} {v : Scan} {rest : List HostAction}

/-! A run that R140 follows -/

/-- A stream operation has ended with the error e (R201). -/
structure StoppedWith (e : StreamErr) (s : State) : Prop where
  state : s.stat.state = .err
  err : s.stat.err = e
  olen : s.olen = 0

theorem stoppedWith_streamError (e : StreamErr) (s : State) : StoppedWith e (streamError e s) := ⟨rfl, rfl, rfl⟩

/-- The block has followed a computation of R140 that has the result r so far: it has ended with r's failure, or is as `P` says of r's
value; or it has ended with LIMIT, which R140 does not know, and only where the input does not fit. -/
inductive Follows (fits : Prop) (P : α → State → Prop) : Except StreamErr α → State → Prop
  | limit {r : Except StreamErr α} {s : State} (hnot : ¬fits) (h : StoppedWith .limit s) : Follows fits P r s
  | ok {a : α} {s : State} (h : P a s) : Follows fits P (.ok a) s
  | error {e : StreamErr} {s : State} (he : e ≠ .limit) (h : StoppedWith e s) : Follows fits P (.error e) s

/-- An input of N characters that is certain to raise no LIMIT: a character counts for five at most, and writes four bytes at most. -/
def DecodeFits (c : Config) (N : Nat) : Prop := 5 * N ≤ maxCnt ∧ 4 * N ≤ c.obufCap

/-- A decode of N characters runs, of which n are still to come, and v holds the variables of R140: LCNT lacks the n characters that
R140 has counted in advance (R142). The last fields bound v. -/
structure Decoding (N n : Nat) (v : Scan) (s : State) : Prop where
  state : s.stat.state = .dec
  err : s.stat.err = .none
  acc : s.acc.toNat = v.group
  dcnt : s.dcnt.toNat = v.j
  lcnt : s.lcnt.toNat + n = v.length
  out : output s = v.out.map some
  group : v.group < 85 ^ v.j
  count : s.lcnt.toNat % 5 = v.j
  lcntBound : s.lcnt.toNat + 5 * n ≤ 5 * N
  olenBound : s.olen.toNat + 4 * v.j + 4 * n ≤ 4 * N

/-- R141. -/
theorem decoding_decStart (N : Nat) (s : State) :
    Decoding N N (scanStart N) { beginStream .dec s with acc := 0, dcnt := 0, lcnt := 0 } where
  state := rfl
  err := rfl
  acc := rfl
  dcnt := rfl
  lcnt := Nat.zero_add N
  out := rfl
  group := Nat.one_pos
  count := rfl
  lcntBound := (Nat.zero_add _).le
  olenBound := (Nat.zero_add _).le

/-- The fields of `Decoding` do not read what the host still has to do. -/
theorem Decoding.with_pending (h : Decoding N n v s) (rest : List HostAction) : Decoding N n v { s with pending := rest } :=
  { h with }

/-! One more character -/

/-- The bytes of a group that fit come after the valid ones (R142). -/
theorem output_append_be4 (hcap : s.cfg.capacityOk = true) (hf : s.olen.toNat + 4 ≤ s.cfg.obufCap)
    (hout : output s = v.out.map some) (g : Group) : output (append (be4 g) s) = (v.out ++ be4 g).map some := by
  rw [output_append (append_olen_toNat (bs := be4 g) hcap hf), hout, List.map_append]

/-- An alphabet digit (R142 to R144). -/
theorem follows_decodeDigit {ch : Byte} (hc : IsInstance s.cfg) (h : Decoding N (n + 1) v s) (hmap : s.cfg.charMap ch = some d) :
    Follows (DecodeFits s.cfg N) (Decoding N n) (scanChar s.cfg ch v) (decodeDigit d s) := by
  obtain ⟨hstate, herr, hacc, hdcnt, hlcnt, hout, hgroup, hcount, hlb, hob⟩ := h
  have hfold := fold_lt hgroup (charMap_lt hc.1 hmap)
  obtain ⟨hn, he⟩ | ⟨hn, hcases⟩ := decodeDigit_cases d s
  · rw [he]
    exact .limit (fun ⟨hlen, _⟩ => by omega) (stoppedWith_streamError _ _)
  have hsucc : (s.lcnt + 1).toNat = s.lcnt.toNat + 1 := counter_add_toNat hn
  rw [hdcnt, hacc] at hcases
  obtain ⟨hj, he⟩ | ⟨hj, hcases⟩ := hcases
  · have hpow : 85 ^ (v.j + 1) ≤ 85 ^ 4 := Nat.pow_le_pow_right (by decide) (by omega)
    rw [he, scanChar_of_inner hmap hj]
    refine .ok ⟨hstate, herr, ?acc, ?dcnt, ?lcnt, hout, hfold, ?count, ?lcntBound, ?olenBound⟩
    case acc =>
      show (BitVec.ofNat 33 (fold v.group d)).toNat = fold v.group d
      rw [BitVec.toNat_ofNat, Nat.mod_eq_of_lt ((hfold.trans_le hpow).trans (by decide))]
    case dcnt =>
      show (BitVec.ofNat 3 (v.j + 1)).toNat = v.j + 1
      rw [BitVec.toNat_ofNat]
      omega
    all_goals simp only [hsucc]; omega
  obtain ⟨hg, he⟩ | ⟨g, hg, hcases⟩ := hcases
  · rw [he, (scanChar_of_fifth hmap hj).1 hg]
    exact .error nofun (stoppedWith_streamError _ _)
  obtain ⟨hf, he⟩ | ⟨hf, he⟩ := hcases
  · rw [he]
    exact .limit (fun ⟨_, hroom⟩ => by omega) (stoppedWith_streamError _ _)
  · rw [he, (scanChar_of_fifth hmap hj).2 g hg]
    refine .ok ⟨hstate, herr, rfl, rfl, ?lcnt5, output_append_be4 (s := { s with lcnt := s.lcnt + 1 }) hc.2 hf hout g,
      Nat.one_pos, ?count5, ?lcntBound5, ?olenBound5⟩
    case olenBound5 =>
      have holen := append_olen_toNat (s := s) (bs := be4 g) hc.2 hf
      show (append (be4 g) s).olen.toNat + 4 * 0 + 4 * n ≤ 4 * N
      rw [holen, be4_length]
      omega
    all_goals simp only [append_lcnt, hsucc]; omega

/-- An exception character (R142, R143). -/
theorem follows_decodeException {ch : Byte} {g : Group} (hc : IsInstance s.cfg) (h : Decoding N (n + 1) v s)
    (hmap : s.cfg.charMap ch = none) (hkey : s.cfg.excKey ch = some g) :
    Follows (DecodeFits s.cfg N) (Decoding N n) (scanChar s.cfg ch v) (decodeException g s) := by
  obtain ⟨hstate, herr, hacc, hdcnt, hlcnt, hout, hgroup, hcount, hlb, hob⟩ := h
  have hcases := decodeException_cases g s
  rw [scanChar_of_exception hmap hkey]
  rw [hdcnt] at hcases
  obtain ⟨hj, he⟩ | ⟨hj, hcases⟩ := hcases
  · rw [he, if_pos hj]
    exact .error nofun (stoppedWith_streamError _ _)
  rw [if_neg (not_not.2 hj)]
  obtain ⟨hn, he⟩ | ⟨hn, ⟨hf, he⟩ | ⟨hf, he⟩⟩ := hcases
  · rw [he]
    exact .limit (fun ⟨hlen, _⟩ => by omega) (stoppedWith_streamError _ _)
  · rw [he]
    exact .limit (fun ⟨_, hroom⟩ => by omega) (stoppedWith_streamError _ _)
  · have hadd : (s.lcnt + 5).toNat = s.lcnt.toNat + 5 := counter_add_toNat hn
    rw [he]
    refine .ok ⟨hstate, herr, hacc, hdcnt, ?lcnt, output_append_be4 hc.2 hf hout g, hgroup, ?count, ?lcntBound, ?olenBound⟩
    case olenBound =>
      have holen := append_olen_toNat (s := s) (bs := be4 g) hc.2 hf
      show (append (be4 g) s).olen.toNat + 4 * v.j + 4 * n ≤ 4 * N
      rw [holen, be4_length]
      omega
    all_goals simp only [hadd]; omega

/-- DEC_CHAR in state DEC does what R140 step 3 does, but for the limits (R142, R143). -/
theorem follows_decodeChar (hc : IsInstance s.cfg) (h : Decoding N (n + 1) v s) (ch : Byte) :
    Follows (DecodeFits s.cfg N) (Decoding N n) (scanChar s.cfg ch v) (decodeChar ch s) := by
  cases hmap : s.cfg.charMap ch with
  | some d => exact decodeChar_of_digit hmap ▸ follows_decodeDigit hc h hmap
  | none =>
    cases hkey : s.cfg.excKey ch with
    | some g => exact decodeChar_of_exception hmap hkey ▸ follows_decodeException hc h hmap hkey
    | none =>
      rw [decodeChar_of_unknown hmap hkey, scanChar_of_unknown hmap hkey]
      exact .error nofun (stoppedWith_streamError _ _)

/-! The end of the input -/

/-- A decode has ended with these bytes (R146). -/
structure Decoded (bytes : List Byte) (s : State) : Prop where
  state : s.stat.state = .done
  err : s.stat.err = .none
  out : output s = bytes.map some

/-- Where the scan has left no digit, nothing is added and nothing cut (R145). -/
theorem decodeEnd_of_whole (h : Decoding N 0 v s) (hr : v.length % 5 = 0) : decodeEnd s = finishStream s := by
  have hlcnt : s.lcnt.toNat = v.length := h.lcnt
  exact if_neg (not_not.2 (hlcnt ▸ hr))

/-- DEC_END in state DEC does what R140 does in steps 4 and 5, but for the limit (R145, R143). -/
theorem follows_decodeEnd (hcap : s.cfg.capacityOk = true) (h : Decoding N 0 v s) :
    Follows (DecodeFits s.cfg N) Decoded (finishScan v s.padFinal) (decodeEnd s) := by
  have hcases := decodeEnd_cases s
  have hlcnt : s.lcnt.toNat = v.length := h.lcnt
  have hcount := h.count
  have hob := h.olenBound
  by_cases hr : s.lcnt.toNat % 5 = 0
  · rw [hlcnt] at hr
    rw [decodeEnd_of_whole h hr, finishScan_of_whole hr]
    exact .ok ⟨rfl, h.err, h.out⟩
  have hp : 5 - s.lcnt.toNat % 5 < 5 := by omega
  have hmissing : v.length % 5 + (5 - s.lcnt.toNat % 5) = 5 := by omega
  obtain ⟨h0, -⟩ | ⟨-, ⟨hg, he⟩ | ⟨g, hg, ⟨hf, he⟩ | ⟨hf, -⟩⟩⟩ := hcases
  · exact absurd h0 hr
  · rw [he, finishScan_of_overflow hp hmissing (h.acc ▸ hg)]
    exact .error nofun (stoppedWith_streamError _ _)
  · rw [he]
    exact .limit (fun ⟨_, hroom⟩ => by omega) (stoppedWith_streamError _ _)
  · obtain ⟨n, hn, he⟩ := decodeEnd_of_room hcap hr hg hf
    have hlen : (v.out ++ be4 g).length = s.olen.toNat + 4 := by
      rw [List.length_append, be4_length, ← output_length s, h.out, List.length_map]
    rw [he, finishScan_of_group hp hmissing (h.acc ▸ hg)]
    refine .ok ⟨rfl, h.err, ?_⟩
    calc output _ = (output s ++ (be4 g).map some).take n.toNat :=
          output_of_store rfl (hn.trans_le (Nat.sub_le _ _))
      _ = _ := by rw [h.out, ← List.map_append, ← List.map_take, hn, hlen]

/-! The run -/

/-- The decoder of a block of configuration c and PAD_FINAL pad has followed R140 to the result r. -/
structure Followed (c : Config) (pad : Bool) (N : Nat) (P : α → State → Prop) (r : Except StreamErr α) (s : State) :
    Prop where
  cfg : s.cfg = c
  padFinal : s.padFinal = pad
  follows : Follows (DecodeFits c N) P r s

/-- A command under the state check of R75 goes on with R140 where the decode runs, and is ignored where it has failed. -/
theorem followed_inStream {P : α → State → Prop} {r : Except StreamErr Scan} {f : State → State}
    {k : Scan → Except StreamErr α} (hf : ConfinedToStream f) (h : Followed c pad N (Decoding N n) r s)
    (hrun : ∀ v, Decoding N n v s → Follows (DecodeFits s.cfg N) P (k v) (f s)) :
    Followed c pad N P (r >>= k) (inStream .dec f s) := by
  obtain ⟨rfl, rfl, hfollows⟩ := h
  obtain ⟨hcfg, hpad, -⟩ := inStream_keeps hf .dec s
  refine ⟨hcfg, hpad, ?_⟩
  cases hfollows with
  | limit hnot hstop =>
    rw [inStream_of_err (want := .dec) _ nofun hstop.state]
    exact .limit hnot hstop
  | error hne hstop =>
    rw [inStream_of_err (want := .dec) _ nofun hstop.state]
    exact .error hne hstop
  | ok hdec =>
    rw [inStream_of_eq _ hdec.state]
    exact hrun _ hdec

/-- R142. -/
theorem followed_decChar {r : Except StreamErr Scan} (hc : IsInstance c) (h : Followed c pad N (Decoding N (n + 1)) r s)
    (ch : Byte) : Followed c pad N (Decoding N n) (r >>= scanChar c ch) (inStream .dec (decodeChar ch) s) := by
  obtain rfl := h.cfg
  exact followed_inStream (confined_decodeChar ch) h fun _ hdec => follows_decodeChar hc hdec ch

/-- R145. -/
theorem followed_decEnd {r : Except StreamErr Scan} (hcap : c.capacityOk = true) (h : Followed c pad N (Decoding N 0) r s) :
    Followed c pad N Decoded (r >>= (finishScan · pad)) (inStream .dec decodeEnd s) := by
  obtain rfl := h.cfg
  obtain rfl := h.padFinal
  exact followed_inStream confined_decodeEnd h fun _ hdec => follows_decodeEnd hcap hdec

/-- What the host still has to do does not matter to the decoder. -/
theorem Followed.with_pending {r : Except StreamErr Scan} (h : Followed c pad N (Decoding N n) r s) (rest : List HostAction) :
    Followed c pad N (Decoding N n) r { s with pending := rest } := by
  obtain ⟨hcfg, hpad, hfollows⟩ := h
  refine ⟨hcfg, hpad, ?_⟩
  cases hfollows with
  | limit hnot hstop => exact .limit hnot { hstop with }
  | error hne hstop => exact .error hne { hstop with }
  | ok hdec => exact .ok (hdec.with_pending rest)

theorem followed_decStart (N : Nat) (s : State) :
    Followed s.cfg s.padFinal N (Decoding N N) (.ok (scanStart N)) { beginStream .dec s with acc := 0, dcnt := 0, lcnt := 0 } :=
  ⟨rfl, rfl, .ok (decoding_decStart N s)⟩

/-- The run of the DEC_CHAR commands of a decode that has come so far. -/
theorem stepN_decChars (hc : IsInstance c) (chs : List Byte) {r : Except StreamErr Scan}
    (h : Followed c pad N (Decoding N chs.length) r s) (hp : s.pending = issueAll (chs.map .decChar) ++ rest) :
    ∃ t, stepN chs.length s = .next t ∧ t.pending = rest ∧ Followed c pad N (Decoding N 0) (r >>= scanAll c chs) t := by
  induction chs generalizing r s with
  | nil =>
    refine ⟨s, rfl, hp, ?_⟩
    cases r <;> exact h
  | cons ch chs ih =>
    have hstep := (step_issue (h.cfg.symm ▸ hc) hp (decode_encode _)).trans (exec_decChar ch _)
    obtain ⟨-, -, hpending⟩ :=
      inStream_keeps (confined_decodeChar ch) .dec { s with pending := issueAll (chs.map .decChar) ++ rest }
    obtain ⟨t, ht, hrest, hfollowed⟩ := ih (followed_decChar hc (h.with_pending _) ch) hpending
    refine ⟨t, (stepN_succ hstep _).trans ht, hrest, ?_⟩
    rwa [funext (scanAll_cons c ch chs), ← bind_assoc]

/-- The run of DEC_START and the characters. -/
theorem stepN_decStart_decChars (hc : IsInstance s.cfg) (chs : List Byte)
    (hp : s.pending = issueAll (.decStart :: chs.map .decChar) ++ rest) :
    ∃ t, stepN (chs.length + 1) s = .next t ∧ t.pending = rest ∧
      Followed s.cfg s.padFinal chs.length (Decoding chs.length 0) (scanAll s.cfg chs (scanStart chs.length)) t := by
  have hstep := (step_issue hc hp (decode_encode _)).trans (exec_decStart _)
  obtain ⟨t, ht, hrest, hfollowed⟩ := stepN_decChars hc chs
    (followed_decStart chs.length { s with pending := issueAll (chs.map .decChar) ++ rest }) rfl
  exact ⟨t, (stepN_succ hstep _).trans ht, hrest, hfollowed⟩

/-- The run of DECODE chs (R78). -/
theorem stepN_decode (hc : IsInstance s.cfg) {chs : List Byte} (hp : s.pending = issueAll (Pseudo.decode chs).expand ++ rest) :
    ∃ t, stepN (chs.length + 2) s = .next t ∧ t.pending = rest ∧
      Followed s.cfg s.padFinal chs.length Decoded (decodeAll s.cfg chs s.padFinal) t := by
  have hp' : s.pending = issueAll (.decStart :: chs.map .decChar) ++ .issue (encode .decEnd) :: rest := by
    rw [hp]
    simp [Pseudo.expand, issueAll]
  obtain ⟨t, ht, hpending, hfollowed⟩ := stepN_decStart_decChars hc chs hp'
  have hend := (step_issue (hfollowed.cfg.symm ▸ hc) hpending (decode_encode _)).trans (exec_decEnd _)
  obtain ⟨-, -, hrest⟩ := inStream_keeps confined_decodeEnd .dec { t with pending := rest }
  refine ⟨_, (stepN_add ht 1).trans (stepN_succ hend 0), hrest, ?_⟩
  rw [decodeAll_eq_bind]
  exact followed_decEnd hc.2 (hfollowed.with_pending rest)

/-- Settles O50: DEC_START, each character and DEC_END keep `Follows`, and what it says of the result is the statement. -/
theorem decodeRunComputesDecode : Obligations.DecodeRunComputesDecode := by
  intro chs s rest hc hp
  obtain ⟨t, ht, hrest, -, -, hfollows⟩ := stepN_decode hc hp
  refine ⟨t, ht, hrest, ?_⟩
  generalize decodeAll s.cfg chs s.padFinal = r at hfollows
  cases hfollows with
  | limit hnot hstop => exact ⟨fun hne => absurd hstop.err hne, fun hlen hcap => absurd ⟨hlen, hcap⟩ hnot⟩
  | ok hdecoded =>
    obtain ⟨hstate, herr, hout⟩ := hdecoded
    refine ⟨fun _ => ⟨fun bytes hr => ?_, nofun⟩, fun _ _ => herr ▸ nofun⟩
    exact Except.ok.inj hr ▸ ⟨hstate, herr, hout⟩
  | error hne hstop =>
    obtain ⟨hstate, herr, holen⟩ := hstop
    refine ⟨fun _ => ⟨nofun, fun code hr => ?_⟩, fun _ _ => herr ▸ hne⟩
    exact Except.error.inj hr ▸ ⟨hstate, herr, holen⟩

/-! A zero group with an exception character -/

/-- No command writes the configuration (R67, R210). -/
theorem exec_cfg {i : Instr} (h : exec i s = .next t) : t.cfg = s.cfg := by
  obtain ⟨hgroup, hguard, hstream, hcontrol⟩ := unitsWriteOnlyTheirRegisters i s t h
  cases hi : unitOf i with
  | group => exact (hgroup hi).1.cfg
  | guard => exact (hguard hi).elim (·.1.cfg) fun ⟨_, hr⟩ => hr.frame.cfg
  | stream => exact (hstream hi).elim (·.cfg) fun ⟨_, hr⟩ => hr.frame.cfg
  | control => exact (hcontrol hi).1.cfg

/-- No step writes the configuration (R210). -/
theorem step_cfg (h : step s = .next t) : t.cfg = s.cfg := by
  obtain ⟨-, ⟨-, rfl⟩ | ⟨a, rest, -, ha⟩⟩ := step_next_cases h
  · rfl
  obtain ⟨_, _, -, -, rfl⟩ | ⟨_, i, -, -, hi⟩ | ⟨_, -, rfl⟩ | ⟨_, _, -, rfl⟩ | ⟨_, -, rfl⟩ | ⟨-, rfl⟩ := perform_next_cases ha
  · rfl
  · exact (exec_cfg hi).trans rfl
  all_goals rfl

theorem stepN_cfg (h : stepN n s = .next t) : t.cfg = s.cfg := by
  induction n generalizing s with
  | zero => rw [Host.Outcome.next.inj h]
  | succ n ih =>
    cases hs : step s with
    | next u =>
      rw [stepN_succ hs] at h
      exact (ih h).trans (step_cfg hs)
    | fault r => simp [stepN, hs] at h
    | refused r => simp [stepN, hs] at h

/-- R5. -/
theorem five_le_obufCap (h : c.capacityOk = true) : 5 ≤ c.obufCap := by
  rw [Config.capacityOk, Bool.and_eq_true, decide_eq_true_eq] at h
  exact h.1

/-- The scan of an exception character alone counts five (R140 step 3). -/
theorem scanAll_excChr {g : Group} {ch : Byte} (hc : c.configOk = true) (h : c.excChr g = some ch) :
    scanAll c [ch] (scanStart 1) = .ok ⟨0, 0, 5, be4 g⟩ := by
  have hscan := scanAll_groupChars (l := 1) (out := []) hc g
  rwa [groupChars_of_excChr h, h] at hscan

/-- The run of DECODE of one exception character writes the bytes of its group, and LCNT counts five (R148). -/
theorem stepN_decode_excChr {g : Group} {ch : Byte} (hc : IsInstance s.cfg) (h : s.cfg.excChr g = some ch)
    (hp : s.pending = issueAll (Pseudo.decode [ch]).expand ++ rest) :
    ∃ t, stepN 3 s = .next t ∧ t.pending = rest ∧ output t = (be4 g).map some ∧ t.lcnt.toNat = 5 := by
  obtain ⟨t, ht, hpending, hcfg, -, hfollows⟩ := stepN_decStart_decChars hc [ch] (rest := .issue (encode .decEnd) :: rest) hp
  have hend := (step_issue (hcfg.symm ▸ hc) hpending (decode_encode _)).trans (exec_decEnd _)
  have hcap := five_le_obufCap hc.2
  have hfits : DecodeFits s.cfg 1 := ⟨by decide, by omega⟩
  rw [List.length_singleton, scanAll_excChr hc.1 h] at hfollows
  cases hfollows with
  | limit hnot => exact absurd hfits hnot
  | ok hdec =>
    have hu := hdec.with_pending rest
    rw [inStream_of_eq _ hu.state, decodeEnd_of_whole hu (by simp)] at hend
    exact ⟨_, (stepN_add ht 1).trans (stepN_succ hend 0), rfl, hdec.out, hdec.lcnt⟩

/-- Settles O55: the four zero bytes are the zero group, whose characters are the one exception character. -/
theorem zeroGroupExceptionRoundTrip : Obligations.ZeroGroupExceptionRoundTrip := by
  intro z s rest hc hz hp
  have hchars : encodeUntruncated s.cfg [0, 0, 0, 0] = [z] := by
    show groupChars s.cfg 0 ++ [] = [z]
    rw [groupChars_of_excChr hz, List.append_nil]
  have hp' : s.pending =
      issueAll (Pseudo.encode [0, 0, 0, 0]).expand ++ (issueAll (Pseudo.decode [z]).expand ++ rest) := hp
  obtain ⟨t, ht, hpending, hencoded⟩ := stepN_encode hc hp'
  have hroom : (encodeUntruncated s.cfg [0, 0, 0, 0]).length ≤ s.cfg.obufCap :=
    hchars ▸ (Nat.le_add_left 1 4).trans (five_le_obufCap hc.2)
  obtain ⟨-, -, hout⟩ := hencoded.done ⟨by decide, hroom⟩
  have hall : encodeAll s.cfg [0, 0, 0, 0] s.padFinal = [z] := by
    rw [encodeAll, hchars]
    rfl
  have hcfg := stepN_cfg ht
  obtain ⟨u, hu, hrest, hzero, hlcnt⟩ := stepN_decode_excChr (hcfg.symm ▸ hc) (hcfg.symm ▸ hz) hpending
  exact ⟨t, u, ht, by rw [hout, hall]; rfl, hu, hzero, hlcnt, hrest⟩

end Sys2Proof.Machine
end

section
/-! SUPPORT. What G_CLEAR, G_BYTE and G_CMP do in every state, in numbers (43_guard_checksum R160, R161, R163, R164), and which
steps write GMATCH (R164, R67). -/

namespace Sys2Proof.Machine

open Sys2Proof

variable {s t : State}

/-! The three checksums in numbers -/

/-- R161. -/
theorem xorAfter_toNat (x : BitVec 32) (b : Byte) : (xorAfter x b).toNat = x.toNat ^^^ b.toNat := by
  rw [xorAfter, BitVec.toNat_xor, BitVec.toNat_setWidth_of_le (by decide)]

/-- R161. -/
theorem sumAfter_toNat (x : BitVec 32) (b : Byte) : (sumAfter x b).toNat = (x.toNat + b.toNat + 1) % 2 ^ 32 := by
  rw [sumAfter, BitVec.toNat_add, BitVec.toNat_add, BitVec.toNat_setWidth_of_le (by decide)]
  exact Nat.mod_add_mod _ _ 1

/-- The rotation doubles the value and carries bit 31 to bit 0 (R9). -/
theorem rotl1_toNat (v : BitVec 32) : (rotl1 v).toNat = v.toNat * 2 % 2 ^ 32 + v.toNat / 2 ^ 31 := by
  have hv := v.isLt
  rw [rotl1, append_toNat, field_toNat, field_toNat]
  omega

/-- R161. -/
theorem rotAfter_toNat (x : BitVec 32) (b : Byte) :
    (rotAfter x b).toNat = (x.toNat * 2 % 2 ^ 32 + x.toNat / 2 ^ 31 + b.toNat) % 2 ^ 32 := by
  rw [rotAfter, BitVec.toNat_add, rotl1_toNat, BitVec.toNat_setWidth_of_le (by decide)]

/-- GMATCH is 1 after a comparison exactly when it was and the values agree (R164). -/
theorem gmatchAfter_eq_true {old : Bool} {v w : BitVec 32} : gmatchAfter old v w = true ↔ old = true ∧ v = w := by
  by_cases h : v = w <;> simp [gmatchAfter, h]

/-! The commands -/

/-- What G_CLEAR makes of a state (R160). -/
def clearGuard (s : State) : State :=
  { s with gN := 0, gXor := 0, gSum := 0, gRot := 0, stat := { s.stat with gmatch := true } }

/-- What G_BYTE makes of a state whose counter can count one more byte (R161). -/
def addGuardByte (b : Byte) (s : State) : State :=
  { s with gN := s.gN + 1, gXor := xorAfter s.gXor b, gSum := sumAfter s.gSum b, gRot := rotAfter s.gRot b }

/-- What G_CMP makes of a state (R164). -/
def compareGuard (sel : GuardSel) (w : BitVec 32) (s : State) : State :=
  { s with stat := { s.stat with gmatch := gmatchAfter s.stat.gmatch (guardField sel s) w } }

theorem exec_gClear (s : State) : exec .gClear s = .next (clearGuard s) := rfl

theorem exec_gCmp (sel : GuardSel) (w : BitVec 32) (s : State) : exec (.gCmp sel w) s = .next (compareGuard sel w s) := rfl

/-- R163. -/
theorem exec_gByte_of_eq (h : s.gN.toNat = maxCnt) (b : Byte) : exec (.gByte b) s = .next (cmdError .limit s) := if_pos h

theorem exec_gByte_of_ne (h : s.gN.toNat ≠ maxCnt) (b : Byte) : exec (.gByte b) s = .next (addGuardByte b s) := if_neg h

theorem frame_gmatch_write (s : State) (g : Bool) : Frame [] gmatchBit s { s with stat := { s.stat with gmatch := g } } where
  regs := fun _ h0 _ => regRead_of_stat h0
  stat := word_keeps_gmatch s.stat g
  cfg := rfl
  pending := rfl
  reply := rfl
  draws := rfl

/-- The counters and checksums are no part of STAT (R20). -/
theorem frame_addGuardByte (b : Byte) (s : State) : Frame [0x0C, 0x0D, 0x0E, 0x0F] 0 s (addGuardByte b s) :=
  { frame_guard_writes s _ _ _ _ s.stat.gmatch with stat := rfl }

/-- A comparison that matches changes nothing (R164). -/
theorem compareGuard_of_eq {sel : GuardSel} {w : BitVec 32} (h : guardField sel s = w) : compareGuard sel w s = s := by
  rw [compareGuard, gmatchAfter, if_neg (not_not.2 h)]

/-- A comparison changes no guard field (R164). -/
@[simp] theorem guardField_compareGuard (sel sel' : GuardSel) (w : BitVec 32) (s : State) :
    guardField sel' (compareGuard sel w s) = guardField sel' s := by
  cases sel' <;> rfl

/-- Settles O35: G_CLEAR writes the four guard registers and GMATCH. -/
theorem gClearStartsANewGuard : Obligations.GClearStartsANewGuard :=
  fun s => ⟨_, exec_gClear s, rfl, rfl, rfl, rfl, rfl, frame_guard_writes s 0 0 0 0 true, fun _ => rfl⟩

/-- Settles O36: at MAXCNT the command is rejected, below it the four registers are written as R161 says. -/
theorem gByteAccumulates : Obligations.GByteAccumulates := by
  refine fun b s => ⟨fun h => ?full, fun h => ?room⟩
  case full => exact ⟨_, exec_gByte_of_eq h b, cmdError_rejected .limit s⟩
  case room =>
    exact ⟨_, exec_gByte_of_ne h.ne b, succ_toNat_of_lt h, xorAfter_toNat _ b, sumAfter_toNat _ b, rotAfter_toNat _ b,
      frame_addGuardByte b s, fun _ => rfl⟩

/-- Settles O37: GMATCH is the only field a comparison writes, and it writes 0 on a mismatch alone. -/
theorem gCmpClearsGmatchOnAMismatch : Obligations.GCmpClearsGmatchOnAMismatch := by
  intro sel w s v
  have hexec := exec_gCmp sel w s
  constructor
  · intro h
    rwa [compareGuard_of_eq h] at hexec
  · intro h
    exact ⟨_, hexec, if_pos h, frame_gmatch_write s _, fun _ => rfl⟩

/-! GMATCH over a step -/

/-- GMATCH is bit 12 of STAT (R21). -/
theorem word_bit_gmatch (t : Stat) : t.word[12] = t.gmatch := by
  rw [← BitVec.getLsbD_eq_getElem, Stat.word]
  iterate 7 rw [BitVec.getLsbD_append]
  simp

/-- A frame whose STAT mask leaves bit 12 out keeps GMATCH. -/
theorem Frame.gmatch_eq {regs : List Nat} {mask : BitVec 32} (h : Frame regs mask s t) (hm : mask[12] = false) :
    t.stat.gmatch = s.stat.gmatch := by
  have hbit := congrArg (·[12]) h.stat
  simpa [word_bit_gmatch, hm] using hbit

theorem Rejected.gmatch_eq {c : CmdCause} (h : Rejected c s t) : t.stat.gmatch = s.stat.gmatch :=
  h.frame.gmatch_eq (by decide)

/-- Of the guard commands only G_CLEAR sets GMATCH (R160, R164). -/
theorem exec_guard_gmatch {i : Instr} (hi : unitOf i = .guard) (hclear : i ≠ .gClear) (hs : s.stat.gmatch = false)
    (h : exec i s = .next t) : t.stat.gmatch = false := by
  cases i <;> cases hi
  case gClear => exact absurd rfl hclear
  case gByte b =>
    by_cases hn : s.gN.toNat = maxCnt
    · rw [← Host.Outcome.next.inj ((exec_gByte_of_eq hn b).symm.trans h)]
      exact hs
    · rw [← Host.Outcome.next.inj ((exec_gByte_of_ne hn b).symm.trans h)]
      exact hs
  case gCmp sel w =>
    rw [← Host.Outcome.next.inj h, ← Bool.not_eq_true]
    exact fun hmatch => Bool.false_ne_true (hs.symm.trans (gmatchAfter_eq_true.1 hmatch).1)

/-- No command but G_CLEAR sets GMATCH: those of the other units do not write it (R67, R164). -/
theorem exec_gmatch {i : Instr} (hclear : i ≠ .gClear) (hs : s.stat.gmatch = false) (h : exec i s = .next t) :
    t.stat.gmatch = false := by
  obtain ⟨hgroup, -, hstream, hcontrol⟩ := unitsWriteOnlyTheirRegisters i s t h
  cases hi : unitOf i with
  | group => exact ((hgroup hi).1.gmatch_eq (by decide)).trans hs
  | guard => exact exec_guard_gmatch hi hclear hs h
  | stream =>
    obtain hf | ⟨c, hr⟩ := hstream hi
    · exact (hf.gmatch_eq (by decide)).trans hs
    · exact hr.gmatch_eq.trans hs
  | control => exact ((hcontrol hi).1.gmatch_eq (by decide)).trans hs

/-- Settles O47: a step that runs no command leaves GMATCH, and only the word of G_CLEAR decodes to it. -/
theorem onlyGClearRestoresGmatch : Obligations.OnlyGClearRestoresGmatch := by
  intro s t hs ht hreset hclear
  obtain ⟨-, ⟨-, rfl⟩ | ⟨a, rest, hp, ha⟩⟩ := step_next_cases ht
  · exact hs
  rw [hp, List.head?_cons, ne_eq, Option.some_inj] at hreset hclear
  obtain ⟨_, _, -, -, rfl⟩ | ⟨cmd, i, rfl, hd, hi⟩ | ⟨_, -, rfl⟩ | ⟨_, _, -, rfl⟩ | ⟨_, -, rfl⟩ | ⟨rfl, -⟩ :=
    perform_next_cases ha
  · exact hs
  · refine exec_gmatch (s := { s with pending := rest }) (fun heq => hclear ?_) hs hi
    rw [← encodeOfDecodeIsTheWord cmd i hd, heq]
    rfl
  · exact hs
  · exact hs
  · exact hs
  · exact absurd rfl hreset

end Sys2Proof.Machine
end

section
/-! SUPPORT. The runs of GUARD and VALIDATE (43_guard_checksum R162, R165; 30_encoding R78), command by command. -/

namespace Sys2Proof.Machine

open Sys2Proof

variable {s : State} {rest : List HostAction}

/-- The guard registers as the tuple of R162. -/
def guardTuple (s : State) : GuardTuple := ⟨s.gN.toNat, s.gXor.toNat, s.gSum.toNat, s.gRot.toNat⟩

/-- One G_BYTE is one byte of R162 (R161). -/
theorem guardTuple_addGuardByte (h : s.gN.toNat < maxCnt) (b : Byte) :
    guardTuple (addGuardByte b s) = guardByte (guardTuple s) b := by
  simp only [guardTuple, addGuardByte, guardByte, succ_toNat_of_lt h, xorAfter_toNat, sumAfter_toNat, rotAfter_toNat,
    Nat.add_assoc]

/-- Below MAXCNT the step of an issued G_BYTE adds its byte (R161). -/
theorem step_gByte {b : Byte} (hc : IsInstance s.cfg) (hn : s.gN.toNat < maxCnt)
    (hp : s.pending = .issue (encode (.gByte b)) :: rest) : step s = .next (addGuardByte b { s with pending := rest }) := by
  rw [step_issue hc hp (decode_encode _)]
  exact exec_gByte_of_ne (s := { s with pending := rest }) hn.ne b

/-- The run of G_BYTE commands whose bytes the counter can hold folds them into the guard registers. -/
theorem stepN_gBytes (x : List Byte) (hc : IsInstance s.cfg) (hn : s.gN.toNat + x.length ≤ maxCnt)
    (hp : s.pending = issueAll (x.map .gByte) ++ rest) :
    ∃ t, stepN x.length s = .next t ∧ t.pending = rest ∧ t.stat.gmatch = s.stat.gmatch ∧
      guardTuple t = x.foldl guardByte (guardTuple s) := by
  induction x generalizing s with
  | nil => exact ⟨s, rfl, hp, rfl, rfl⟩
  | cons b x ih =>
    rw [List.length_cons] at hn
    have hlt : s.gN.toNat < maxCnt := by omega
    have hcount : (s.gN + 1).toNat + x.length ≤ maxCnt := by
      rw [succ_toNat_of_lt hlt]
      omega
    obtain ⟨t, ht, hrest, hmatch, htuple⟩ :=
      ih (s := addGuardByte b { s with pending := issueAll (x.map .gByte) ++ rest }) hc hcount rfl
    refine ⟨t, (stepN_succ (step_gByte hc hlt hp) _).trans ht, hrest, hmatch, ?_⟩
    rw [htuple, guardTuple_addGuardByte (by exact hlt)]
    rfl

/-- The run of GUARD x (R162). -/
theorem stepN_guard {x : List Byte} (hc : IsInstance s.cfg) (hx : x.length ≤ maxCnt)
    (hp : s.pending = issueAll (Pseudo.guard x).expand ++ rest) :
    ∃ t, stepN (x.length + 1) s = .next t ∧ t.pending = rest ∧ t.stat.gmatch = true ∧ guardTuple t = generate x := by
  have hstep := (step_issue hc hp (decode_encode _)).trans (exec_gClear _)
  obtain ⟨t, ht, hrest, hmatch, htuple⟩ := stepN_gBytes x
    (s := clearGuard { s with pending := issueAll (x.map .gByte) ++ rest }) hc ((Nat.zero_add _).trans_le hx) rfl
  exact ⟨t, (stepN_succ hstep _).trans ht, hrest, hmatch, htuple⟩

/-- The run of G_CMP commands leaves GMATCH at 1 exactly when it was 1 and every field compared matches (R164). -/
theorem stepN_gCmps (cs : List (GuardSel × BitVec 32)) (hc : IsInstance s.cfg)
    (hp : s.pending = issueAll (cs.map fun c => .gCmp c.1 c.2) ++ rest) :
    ∃ t, stepN cs.length s = .next t ∧ t.pending = rest ∧
      (t.stat.gmatch = true ↔ s.stat.gmatch = true ∧ ∀ c ∈ cs, guardField c.1 s = c.2) := by
  induction cs generalizing s with
  | nil => exact ⟨s, rfl, hp, by simp⟩
  | cons c cs ih =>
    obtain ⟨sel, w⟩ := c
    have hstep := (step_issue hc hp (decode_encode _)).trans (exec_gCmp sel w _)
    obtain ⟨t, ht, hrest, hmatch⟩ :=
      ih (s := compareGuard sel w { s with pending := issueAll (cs.map fun c => .gCmp c.1 c.2) ++ rest }) hc rfl
    refine ⟨t, (stepN_succ hstep _).trans ht, hrest, ?_⟩
    have hafter : t.stat.gmatch = true ↔
        (s.stat.gmatch = true ∧ guardField sel s = w) ∧ ∀ c ∈ cs, guardField c.1 s = c.2 := by
      simp only [guardField_compareGuard] at hmatch
      exact hmatch.trans (and_congr_left' gmatchAfter_eq_true)
    rw [hafter, List.forall_mem_cons, and_assoc]

/-- Settles O57: G_CLEAR begins the tuple of R162 and each byte is folded into it. -/
theorem guardRunComputesGenerate : Obligations.GuardRunComputesGenerate := by
  intro x s rest hc hx hp
  obtain ⟨t, ht, hrest, hmatch, htuple⟩ := stepN_guard hc hx hp
  exact ⟨t, ht, hrest, hmatch, htuple.symm⟩

/-- Settles O58: the run of GUARD leaves Generate(x) and GMATCH = 1, and the five comparisons test its fields. -/
theorem validateRunAnswersInGmatch : Obligations.ValidateRunAnswersInGmatch := by
  intro x nDec nHex gx gs gr s rest hc hx hp
  rw [issueAll, List.map_append, List.append_assoc] at hp
  obtain ⟨t, ht, hpending, hone, htuple⟩ := stepN_guard hc hx hp
  obtain ⟨u, hu, hrest, hmatch⟩ := stepN_gCmps [(.n, nDec), (.n, nHex), (.xor, gx), (.sum, gs), (.rot, gr)]
    ((stepN_cfg ht).symm ▸ hc) hpending
  refine ⟨u, (stepN_add ht 5).trans hu, hrest, hmatch.trans ?_⟩
  rw [← htuple]
  simp [hone, guardField, guardTuple, BitVec.toNat_inj, eq_comm]

end Sys2Proof.Machine
end

section
/-! SUPPORT. The functions Generate and validate (43_guard_checksum R162, R165): the laws of R167 and R169. -/

namespace Sys2Proof.Machine

open Sys2Proof

variable {x y : List Byte}

theorem generate_concat (x : List Byte) (b : Byte) : generate (x ++ [b]) = guardByte (generate x) b := by
  rw [generate, List.foldl_append]
  rfl

/-- R162. -/
theorem generate_n (x : List Byte) : (generate x).n = x.length := by
  induction x using List.reverseRecOn with
  | nil => rfl
  | append_singleton x b ih => rw [generate_concat, guardByte, ih, List.length_append, List.length_singleton]

/-- R169. -/
theorem generate_xor_lt (x : List Byte) : (generate x).xor < 256 := by
  induction x using List.reverseRecOn with
  | nil => decide
  | append_singleton x b ih =>
    rw [generate_concat]
    exact Nat.xor_lt_two_pow (n := 8) ih b.isLt

/-- R169. -/
theorem generate_sum (x : List Byte) : (generate x).sum = (x.length + (x.map BitVec.toNat).sum) % 2 ^ 32 := by
  induction x using List.reverseRecOn with
  | nil => rfl
  | append_singleton x b ih =>
    rw [generate_concat, guardByte, ih, List.length_append, List.map_append, List.sum_append, Nat.mod_add_mod]
    simp only [List.length_singleton, List.map_singleton, List.sum_singleton]
    congr 1
    omega

/-- The XOR checksum is a fold of its own: no other field enters it (R162). -/
theorem generate_xor (x : List Byte) : (generate x).xor = x.foldl (fun v b => v ^^^ b.toNat) 0 :=
  (List.foldl_hom GuardTuple.xor fun _ _ => rfl).symm

/-- R169. -/
theorem generate_xor_perm (h : x.Perm y) : (generate x).xor = (generate y).xor := by
  rw [generate_xor, generate_xor]
  exact h.foldl_eq' (fun a _ b _ v => Nat.xor_right_comm v a.toNat b.toNat) 0

/-- R169. -/
theorem generate_sum_perm (h : x.Perm y) : (generate x).sum = (generate y).sum := by
  rw [generate_sum, generate_sum, h.length_eq, (h.map _).sum_eq]

/-- R162, R169. -/
theorem generate_xor_cons (b : Byte) (x : List Byte) : (generate (b :: x)).xor = (generate x).xor ^^^ b.toNat := by
  rw [← generate_xor_perm (List.perm_append_singleton b x), generate_concat]
  rfl

/-- One byte changed changes the XOR checksum by the XOR of the two bytes (R167). -/
theorem generate_xor_set {k : Nat} {old : Byte} (hk : x[k]? = some old) (new : Byte) :
    (generate (x.set k new)).xor = (generate x).xor ^^^ (old.toNat ^^^ new.toNat) := by
  obtain ⟨hlt, rfl⟩ := List.getElem?_eq_some_iff.1 hk
  rw [generate_xor_perm (List.set_perm_cons_eraseIdx hlt new), ← generate_xor_perm (List.getElem_cons_eraseIdx_perm hlt),
    generate_xor_cons, generate_xor_cons, ← Nat.xor_assoc, Nat.xor_xor_cancel_right]

/-- R165. -/
theorem validate_iff {nDec nHex gx gs gr : Nat} :
    validate x nDec nHex gx gs gr = true ↔
      nDec = (generate x).n ∧ nHex = (generate x).n ∧ gx = (generate x).xor ∧ gs = (generate x).sum ∧ gr = (generate x).rot := by
  simp only [validate, Bool.and_eq_true, beq_iff_eq, and_assoc]

/-- Settles O59: the guard of x has its own five fields, and another byte at k gives another XOR checksum. -/
theorem oneByteChangeIsDetected : Obligations.OneByteChangeIsDetected := by
  refine fun x => ⟨validate_iff.2 ⟨rfl, rfl, rfl, rfl, rfl⟩, fun k old new hk hne => ?_⟩
  have hset := generate_xor_set hk new
  refine ⟨hset, Bool.eq_false_iff.2 fun hvalid => hne ?_⟩
  obtain ⟨-, -, hxor, -, -⟩ := validate_iff.1 hvalid
  have hzero : old.toNat ^^^ new.toNat = 0 := xor_left_eq_self_iff.1 (hxor.trans hset).symm
  exact (BitVec.eq_of_toNat_eq (Nat.xor_eq_zero_iff.1 hzero)).symm

/-- Settles O60: XOR and SUM are folds of commuting updates; two bytes in either order show that ROT is not. -/
theorem guardChecksumLaws : Obligations.GuardChecksumLaws :=
  ⟨fun x => ⟨generate_n x, generate_xor_lt x, generate_sum x⟩, fun _ _ h => ⟨generate_xor_perm h, generate_sum_perm h⟩,
    [0x4D, 0x61], [0x61, 0x4D], List.Perm.swap _ _ _, by decide⟩

end Sys2Proof.Machine
end

section
/-! SUPPORT. What NOP, SET_CTRL and CLR_CMDERR do in every state, with their frames (44_control R180 to R182; 30_encoding R75). -/

namespace Sys2Proof.Machine

open Sys2Proof

variable {s : State}

/-- R181, R75. -/
theorem exec_setCtrl_of_stream (h : s.stat.state = .enc ∨ s.stat.state = .dec) (pad : Bool) :
    exec (.setCtrl pad) s = .next (cmdError .wrongState s) := if_pos h

/-- R181. -/
theorem exec_setCtrl_of_no_stream (h : ¬(s.stat.state = .enc ∨ s.stat.state = .dec)) (pad : Bool) :
    exec (.setCtrl pad) s = .next { s with padFinal := pad } := if_neg h

theorem exec_clrCmdErr (s : State) : exec .clrCmdErr s = .next (clearCmdError s) := rfl

/-- PAD_FINAL is no part of STAT (R20). -/
theorem frame_padFinal_write (s : State) (pad : Bool) : Frame [0x01] 0 s { s with padFinal := pad } :=
  { frame_control_writes s pad s.stat.cmdErr s.stat.cmdCause with stat := rfl }

theorem frame_clearCmdError (s : State) : Frame [] cmdBits s (clearCmdError s) :=
  { frame_control_writes s s.padFinal false .none with regs := fun _ h0 _ => regRead_of_stat h0 }

/-- Settles O18: NOP answers the state it is given. -/
theorem nopChangesNothing : Obligations.NopChangesNothing := fun _ => rfl

/-- Settles O19: a running stream rejects SET_CTRL, and in the other three states PAD_FINAL alone is written. -/
theorem setCtrlWritesPadFinal : Obligations.SetCtrlWritesPadFinal := by
  refine fun pad s => ⟨fun h => ?rejected, fun h => ?written⟩
  case rejected => exact ⟨_, exec_setCtrl_of_stream h pad, cmdError_rejected .wrongState s⟩
  case written =>
    have hno : ¬(s.stat.state = .enc ∨ s.stat.state = .dec) := by
      obtain h | h | h := h <;> simp [h]
    exact ⟨_, exec_setCtrl_of_no_stream hno pad, rfl, frame_padFinal_write s pad, fun _ => rfl⟩

/-- Settles O20: CMDERR and CMDCAUSE are the only fields CLR_CMDERR writes. -/
theorem clrCmdErrClearsTheCommandError : Obligations.ClrCmdErrClearsTheCommandError :=
  fun s => ⟨_, exec_clrCmdErr s, rfl, rfl, frame_clearCmdError s, fun _ => rfl⟩

end Sys2Proof.Machine
end

section
/-! SUPPORT. What every step answers: the idle step, the configuration, and that a block with the invariant never stops (20_memory R54;
60_exceptions R205, R210, R215). -/

namespace Sys2Proof.Machine

open Sys2Proof

variable {s : State}

/-- R54, R215; log entry 1. -/
theorem takeAction_of_no_action (h : s.pending = []) : takeAction s = .next s := by
  rw [takeAction, h]

/-- Settles O9: there is no action to take. -/
theorem idleBlockHoldsItsState : Obligations.IdleBlockHoldsItsState := by
  intro s hc hp
  rw [step_eq_takeAction hc.1 hc.2]
  exact takeAction_of_no_action hp

/-- Settles O41: it is `step_cfg`, each unit's frame and the reset input keeping the configuration. -/
theorem configurationNeverChanges : Obligations.ConfigurationNeverChanges := fun _ _ => step_cfg

/-- Every command has a meaning in every state: a rejection too is a next state (R74, R75). -/
theorem exec_answers (i : Instr) (s : State) : ∃ t, exec i s = .next t := by
  cases i
  case setCtrl pad =>
    by_cases h : s.stat.state = .enc ∨ s.stat.state = .dec
    · exact ⟨_, exec_setCtrl_of_stream h pad⟩
    · exact ⟨_, exec_setCtrl_of_no_stream h pad⟩
  case gByte b =>
    by_cases h : s.gN.toNat = maxCnt
    · exact ⟨_, exec_gByte_of_eq h b⟩
    · exact ⟨_, exec_gByte_of_ne h b⟩
  all_goals exact ⟨_, rfl⟩

/-- Every word is answered: one that does not decode is a command error (R74, R203). -/
theorem issue_answers (cmd : Cmd) (s : State) : ∃ t, issue cmd s = .next t := by
  unfold issue
  cases decode cmd with
  | error c => exact ⟨_, rfl⟩
  | ok i => exact exec_answers i s

/-- A buffer read is answered where OLEN does not pass OBUF_CAP (R26(e), R53). -/
theorem readBuf_answers (h : s.olen.toNat ≤ s.cfg.obufCap) (i : BitVec 32) : ∃ t, readBuf i s = .next t := by
  obtain ⟨v, hr, -⟩ | hr | ⟨-, hi, hcap⟩ := readBuf_cases i s
  · exact ⟨_, hr⟩
  · exact ⟨_, hr⟩
  · omega

/-- Every action is answered where OLEN does not pass OBUF_CAP (R26(e)). -/
theorem perform_answers (h : s.olen.toNat ≤ s.cfg.obufCap) (a : HostAction) : ∃ t, perform a s = .next t := by
  cases a with
  | issue cmd => exact issue_answers cmd s
  | readReg i => exact ⟨_, rfl⟩
  | readBuf i => exact readBuf_answers h i
  | reset => exact ⟨_, rfl⟩

/-- Settles O40: the invariant has an instance of the block, which no step refuses, and bounds OLEN, so that no read faults. -/
theorem stepNeverStops : Obligations.StepNeverStops := by
  intro s h
  cases hp : s.pending with
  | nil => exact ⟨s, idleBlockHoldsItsState s ⟨h.config, h.capacity⟩ hp⟩
  | cons a rest =>
    rw [step_pending ⟨h.config, h.capacity⟩ hp]
    exact perform_answers (s := { s with pending := rest }) h.olenBound a

end Sys2Proof.Machine
end

section
/-! SUPPORT. How long the error records stay: CMDERR (60_exceptions R203) and the stream error (R205), command by command and over a
step. -/

namespace Sys2Proof.Machine

open Sys2Proof

variable {s t : State}

/-- All that a step can do when its action is not the reset input: a read or no action touches the host's side alone, and an issued word
is a command error or the word of the command that runs (R54, R74). -/
theorem step_next_cases_of_no_reset (ht : step s = .next t) (hreset : s.pending.head? ≠ some .reset) :
    (∃ pending reply draws, t = { s with pending := pending, reply := reply, draws := draws }) ∨
      (∃ rest c, t = cmdError c { s with pending := rest }) ∨
        ∃ rest i, s.pending.head? = some (.issue (encode i)) ∧ exec i { s with pending := rest } = .next t := by
  obtain ⟨-, ⟨-, rfl⟩ | ⟨a, rest, hp, ha⟩⟩ := step_next_cases ht
  · exact Or.inl ⟨_, _, _, rfl⟩
  obtain ⟨_, c, -, -, rfl⟩ | ⟨cmd, i, rfl, hd, hi⟩ | ⟨_, -, rfl⟩ | ⟨_, _, -, rfl⟩ | ⟨_, -, rfl⟩ | ⟨rfl, -⟩ :=
    perform_next_cases ha
  · exact Or.inr (Or.inl ⟨rest, c, rfl⟩)
  · refine Or.inr (Or.inr ⟨rest, i, ?_, hi⟩)
    rw [hp, encodeOfDecodeIsTheWord cmd i hd, List.head?_cons]
  · exact Or.inl ⟨_, _, _, rfl⟩
  · exact Or.inl ⟨_, _, _, rfl⟩
  · exact Or.inl ⟨_, _, _, rfl⟩
  · exact absurd (congrArg List.head? hp) hreset

/-! The command error -/

/-- Of the control commands only CLR_CMDERR clears CMDERR (R180 to R182). -/
theorem exec_control_cmdErr {i : Instr} (hi : unitOf i = .control) (hclr : i ≠ .clrCmdErr) (hs : s.stat.cmdErr = true)
    (ht : exec i s = .next t) : t.stat.cmdErr = true := by
  cases i <;> cases hi
  case nop => exact Host.Outcome.next.inj ht ▸ hs
  case setCtrl pad =>
    by_cases h : s.stat.state = .enc ∨ s.stat.state = .dec
    · rw [← Host.Outcome.next.inj ((exec_setCtrl_of_stream h pad).symm.trans ht)]
      rfl
    · rw [← Host.Outcome.next.inj ((exec_setCtrl_of_no_stream h pad).symm.trans ht)]
      exact hs
  case clrCmdErr => exact absurd rfl hclr

/-- CMDERR is no part of what a stream command writes, other than by being rejected (R67, R75). -/
theorem exec_stream_cmdErr {i : Instr} (hi : unitOf i = .stream) (hs : s.stat.cmdErr = true) (ht : exec i s = .next t) :
    t.stat.cmdErr = true := by
  obtain ⟨f, hf, he | ⟨want, he⟩⟩ := exec_stream_confined hi
  · rw [← Host.Outcome.next.inj ((he s).symm.trans ht), hf.eq_withStreamOf s]
    exact hs
  · rw [← Host.Outcome.next.inj ((he s).symm.trans ht)]
    obtain ⟨-, hr⟩ | ⟨-, -, hr⟩ | ⟨-, -, hr⟩ := inStream_cases want f s <;> rw [hr]
    · rw [hf.eq_withStreamOf s]
      exact hs
    · exact hs
    · rfl

/-- No command but CLR_CMDERR clears CMDERR (R203). -/
theorem exec_cmdErr {i : Instr} (hclr : i ≠ .clrCmdErr) (hs : s.stat.cmdErr = true) (ht : exec i s = .next t) :
    t.stat.cmdErr = true := by
  cases hi : unitOf i with
  | control => exact exec_control_cmdErr hi hclr hs ht
  | group =>
    obtain ⟨_, _, _, _, rfl⟩ := exec_group_writes hi ht
    exact hs
  | stream => exact exec_stream_cmdErr hi hs ht
  | guard =>
    obtain ⟨_, _, _, _, _, rfl⟩ | rfl := exec_guard_writes hi ht
    · exact hs
    · rfl

/-- Settles O44: a command error sets CMDERR, and the only word whose command clears it is that of CLR_CMDERR. -/
theorem cmdErrIsSticky : Obligations.CmdErrIsSticky := by
  intro s t hs ht hreset hclr
  obtain ⟨_, _, _, rfl⟩ | ⟨_, _, rfl⟩ | ⟨rest, i, hp, hi⟩ := step_next_cases_of_no_reset ht hreset
  · exact hs
  · rfl
  · refine exec_cmdErr (s := { s with pending := rest }) ?_ hs hi
    rintro rfl
    exact hclr hp

/-! The stream error -/

/-- In ERR the state check ignores every stream command but the two that begin a stream (R75, R205). -/
theorem exec_stream_of_err {i : Instr} (hi : unitOf i = .stream) (henc : i ≠ .encStart) (hdec : i ≠ .decStart)
    (hs : s.stat.state = .err) : exec i s = .next s := by
  cases i <;> cases hi
  case encStart => exact absurd rfl henc
  case encByte b => rw [exec_encByte, inStream_of_err (want := .enc) _ nofun hs]
  case encEnd => rw [exec_encEnd, inStream_of_err (want := .enc) _ nofun hs]
  case decStart => exact absurd rfl hdec
  case decChar ch => rw [exec_decChar, inStream_of_err (want := .dec) _ nofun hs]
  case decEnd => rw [exec_decEnd, inStream_of_err (want := .dec) _ nofun hs]

/-- No command but ENC_START and DEC_START writes STATE, ERR or OLEN in state ERR (R205). -/
theorem exec_keeps_stream_error {i : Instr} (henc : i ≠ .encStart) (hdec : i ≠ .decStart) (hs : s.stat.state = .err)
    (ht : exec i s = .next t) : t.stat.state = .err ∧ t.stat.err = s.stat.err ∧ t.olen = s.olen := by
  cases hi : unitOf i with
  | control =>
    obtain ⟨_, _, _, rfl⟩ := exec_control_writes hi ht
    exact ⟨hs, rfl, rfl⟩
  | group =>
    have hagree := streamAgree_of_exec (Or.inl hi) ht
    exact ⟨hagree.state ▸ hs, hagree.err.symm, hagree.olen.symm⟩
  | stream =>
    rw [← Host.Outcome.next.inj ((exec_stream_of_err hi henc hdec hs).symm.trans ht)]
    exact ⟨hs, rfl, rfl⟩
  | guard =>
    have hagree := streamAgree_of_exec (Or.inr hi) ht
    exact ⟨hagree.state ▸ hs, hagree.err.symm, hagree.olen.symm⟩

/-- Settles O45: a command error leaves the stream error's record, and only two words have a command that does not. -/
theorem streamErrorIsLeftOnlyByAStartOrReset : Obligations.StreamErrorIsLeftOnlyByAStartOrReset := by
  intro s t hs ht hreset henc hdec
  obtain ⟨_, _, _, rfl⟩ | ⟨_, _, rfl⟩ | ⟨rest, i, hp, hi⟩ := step_next_cases_of_no_reset ht hreset
  · exact ⟨hs, rfl, rfl⟩
  · exact ⟨hs, rfl, rfl⟩
  · refine exec_keeps_stream_error (s := { s with pending := rest }) ?_ ?_ hs hi
    · rintro rfl
      exact henc hp
    · rintro rfl
      exact hdec hp

end Sys2Proof.Machine
end

section
/-! SUPPORT. PAD_FINAL through a stream operation (70_reset_and_hazards R236; 44_control R181), and the reset input in any state (R220). -/

namespace Sys2Proof.Machine

open Sys2Proof

variable {s t : State}

/-! PAD_FINAL through a stream operation -/

/-- SET_CTRL, the one control command that writes PAD_FINAL, is rejected while a stream runs (R181, R75). -/
theorem exec_control_padFinal_of_stream {i : Instr} (hi : unitOf i = .control) (hs : s.stat.state = .enc ∨ s.stat.state = .dec)
    (ht : exec i s = .next t) : t.padFinal = s.padFinal := by
  cases i <;> cases hi
  case nop => rw [← Host.Outcome.next.inj ht]
  case setCtrl pad =>
    rw [← Host.Outcome.next.inj ((exec_setCtrl_of_stream hs pad).symm.trans ht), cmdError_padFinal]
  case clrCmdErr =>
    rw [← Host.Outcome.next.inj ((exec_clrCmdErr s).symm.trans ht), clearCmdError_padFinal]

/-- A stream command reads PAD_FINAL and does not write it, in every state (R67). -/
theorem exec_stream_padFinal {i : Instr} (hi : unitOf i = .stream) (ht : exec i s = .next t) : t.padFinal = s.padFinal := by
  obtain ⟨f, hf, he | ⟨want, he⟩⟩ := exec_stream_confined hi
  · rw [← Host.Outcome.next.inj ((he s).symm.trans ht)]
    exact hf.padFinal_eq s
  · rw [← Host.Outcome.next.inj ((he s).symm.trans ht)]
    obtain ⟨-, hpad, -⟩ := inStream_keeps hf want s
    exact hpad

/-- No command writes PAD_FINAL while a stream runs (R236). -/
theorem exec_padFinal_of_stream {i : Instr} (hs : s.stat.state = .enc ∨ s.stat.state = .dec) (ht : exec i s = .next t) :
    t.padFinal = s.padFinal := by
  cases hi : unitOf i with
  | control => exact exec_control_padFinal_of_stream hi hs ht
  | group => exact (streamAgree_of_exec (Or.inl hi) ht).padFinal.symm
  | stream => exact exec_stream_padFinal hi ht
  | guard => exact (streamAgree_of_exec (Or.inr hi) ht).padFinal.symm

/-- Settles O46: only a command could write PAD_FINAL, and none does while a stream runs. -/
theorem padFinalIsConstantInAStream : Obligations.PadFinalIsConstantInAStream := by
  intro s t hs ht hreset
  obtain ⟨_, _, _, rfl⟩ | ⟨_, _, rfl⟩ | ⟨rest, i, -, hi⟩ := step_next_cases_of_no_reset ht hreset
  · rfl
  · rfl
  · exact exec_padFinal_of_stream (s := { s with pending := rest }) hs hi

/-! The reset input -/

/-- The host's side, which the reset input keeps, is behind no register index (R52, R220; log entry 10). -/
theorem regRead_resetInput (s : State) (i : BitVec 8) : regRead i (resetInput s) = regRead i (State.resetOf s.cfg) := rfl

/-- Settles O13: the reset input gives the block the registers of `State.resetOf` and an OBUF without a cell. -/
theorem resetInputSetsTheResetValues : Obligations.ResetInputSetsTheResetValues := by
  intro s rest hc hp
  refine ⟨resetInput { s with pending := rest }, step_pending hc hp, rfl, rfl, fun _ => rfl, fun i => ?_⟩
  rw [regRead_resetInput, regRead_resetOf]

end Sys2Proof.Machine
end
